-- ==== Sys2Proof/Word.lean ====
section
/-! DEFINITION. The plainest types of MDHX-PE: the 32-bit word and the two numberings (units and slots), and tables indexed by them. -/

/-- Entry i of a table. -/
def Vector.look {α : Type} {n : Nat} (v : Vector α n) (i : Fin n) : α := v.get i

/-- The table with entry i replaced by x. -/
def Vector.put {α : Type} {n : Nat} (v : Vector α n) (i : Fin n) (x : α) : Vector α n :=
  v.set i.val x i.isLt

namespace Sys2Proof

/-- The width W of the signed reading and of every host register (rule R7, decision D3). -/
abbrev Word := BitVec 32

/-- A unit number, the 4-bit `UNIT` field read as an unsigned number 0 to 15 (rules R53, R54).
Which of the sixteen exist is `Params.nunits` (rule R7). -/
abbrev UnitId := Fin 16

/-- A registry slot number; `NSLOTS` is 4 (rule R7). -/
abbrev SlotId := Fin 4

/-- `NSLOTS` (rule R7). -/
abbrev nslots : Nat := 4

/-- `DATA_BITS` (rule R7): data bits of one exchange. -/
abbrev dataBits : Nat := 24

/-- The four slots in the order in which the registry searches them, lowest first (rules R93, R110). -/
abbrev slotOrder : List SlotId := [0, 1, 2, 3]

end Sys2Proof
end

