-- ==== Sys2Proof/Config.lean ====
section
/-! DEFINITION. What an implementation of MDHX-PE fixes (rule R7's open parameters) and the free values of the model. -/

namespace Sys2Proof

/-- The open parameters of rule R7. They are fixed at build and the machine shows two of them in `CAP`
(rule R24), so State carries them as data: a claim about every state is a claim about every
parameter choice, and no step changes them.
Durations are natural numbers of nanoseconds (DESIGN CHOICE, notes/assumptions/3.md). -/
structure Params where
  /-- `NUNITS`: number of device units wired to the block, 1 to 16. -/
  nunits : Nat
  /-- `IRQ_CAPABLE[u]` is bit u. -/
  irqCapable : BitVec 16
  /-- `BASE`: host address of the 64-byte register window. -/
  base : Nat
  /-- `T_H`: minimum clock-high settle time inside an exchange. -/
  tH : Nat
  /-- `T_L`: minimum clock-low settle time inside an exchange. -/
  tL : Nat
  /-- `T_PD`: clock-high hold time of the power cycle. -/
  tPD : Nat
  /-- `T_PU`: clock-low time at the end of the power cycle. -/
  tPU : Nat
  /-- `T_POLL`: minimum interval between two ready polls or two in-handler polls. -/
  tPoll : Nat
  deriving DecidableEq, Repr

/-- The 60 microsecond power-down threshold of rules R67 and R134, in nanoseconds. -/
abbrev powerDownThreshold : Nat := 60000

/-- The constraints rules R7 and R134 put on the parameters. -/
abbrev Params.wf (p : Params) : Prop :=
  1 ≤ p.nunits ∧ p.nunits ≤ 16 ∧
  0 < p.tH ∧ p.tH < powerDownThreshold ∧ 0 < p.tL ∧
  powerDownThreshold ≤ p.tPD ∧ 0 < p.tPoll

/-- Unit u's data pin supports falling-edge dispatch: `IRQ_CAPABLE[u]` (rule R7, decision D6). -/
def Params.capable (p : Params) (u : UnitId) : Bool := p.irqCapable.getLsbD u.val

/-- The parameters the reset state is built with: `NUNITS` = 8 and every unit capable, as the test
vectors use (rule R7, 95_test_vectors.md).
DESIGN CHOICE (notes/assumptions/2.md): the spec leaves the values open, `BASE` and the durations
among them. -/
def Params.testVectors : Params :=
  { nunits := 8, irqCapable := 0x00FF, base := 0
    tH := 1000, tL := 1000, tPD := 60000, tPU := 0, tPoll := 1000 }

/-- Free value: `SHIFT` after an exchange and after power-on, where its value is unspecified
(rule R31; 93 entry U2: any value). Applied to the counter `Ghost.draws`; notes/assumptions/6.md. -/
opaque Config.freeShift : Nat → BitVec 24

/-- Free value: `BITCNT` outside an exchange, within its stated range 0 to 24 (rule R31, 93 entry U2). -/
opaque Config.freeBitcnt : Nat → Fin 25

/-- Free value: `XCNT` outside an exchange, within its stated range 0 to 3 (rule R31, 93 entry U2). -/
opaque Config.freeXcnt : Nat → Fin 4

/-- Free value: the level of each undriven `PD_SCK[u]` after a power-on reset that arrives as an input
(rule R30; 93 entry U1: any value). Bit u is unit u's level. -/
opaque Config.freeLevels : Nat → BitVec 16

end Sys2Proof
end

