-- ==== Sys2Proof/Syntax.lean ====
section
/-! DEFINITION. The 14 commands of spec/opcode_table.json as syntax, their operands, the command errors and the spec's pseudo-instructions. -/

namespace Sys2Proof

/-- One of the two analog inputs of a device (rules R11, R13). -/
inductive Channel where
  | a
  | b
  deriving DecidableEq, Repr

/-- The gain of channel A: HIGH is the source's default gain, LOW its alternate gain (rule R11). -/
inductive Gain where
  | high
  | low
  deriving DecidableEq, Repr

/-- The commands of MDHX-PE, one constructor per row of the opcode table (rule R55). -/
inductive Instr where
  /-- `NOP` (rule R80). -/
  | nop
  /-- `INIT u` (rule R81). -/
  | init (u : UnitId)
  /-- `RESET u` (rule R82). -/
  | reset (u : UnitId)
  /-- `ENB u, b` (rule R83). -/
  | enb (u : UnitId) (b : Bool)
  /-- `GAIN u, g` (rule R84). -/
  | gain (u : UnitId) (g : Gain)
  /-- `RDY u` (rule R90). -/
  | rdy (u : UnitId)
  /-- `READ u` (rule R91). -/
  | read (u : UnitId)
  /-- `NBREAD u` (rule R92). -/
  | nbread (u : UnitId)
  /-- `IATT u` (rule R93). -/
  | iatt (u : UnitId)
  /-- `IDET u` (rule R94). -/
  | idet (u : UnitId)
  /-- `ISIM u` (rule R95). -/
  | isim (u : UnitId)
  /-- `GRAW u, ch` (rule R97). -/
  | graw (u : UnitId) (ch : Channel)
  /-- `GCNT u` (rule R98). -/
  | gcnt (u : UnitId)
  /-- `GSTATE u` (rule R99). -/
  | gstate (u : UnitId)
  deriving DecidableEq, Repr

/-- The causes of a command error, in the order in which they are checked (rules R101, R102). -/
inductive CmdError where
  /-- `E_OPC`: illegal opcode. -/
  | opc
  /-- `E_RSVD`: a reserved bit or an unused field is 1. -/
  | rsvd
  /-- `E_UNIT`: the named unit does not exist. -/
  | unit
  /-- `E_NOCFG`: the named unit has not been configured by `INIT`. -/
  | nocfg
  /-- `E_MODE`: foreground acquisition on an attached unit. -/
  | mode
  deriving DecidableEq, Repr

/-- The pseudo-instructions of rule R63. -/
inductive Pseudo where
  | imode (u : UnitId) (on : Bool)
  | gainhi (u : UnitId)
  | gainlo (u : UnitId)
  | enbon (u : UnitId)
  | enboff (u : UnitId)
  deriving DecidableEq, Repr

end Sys2Proof
end

