-- ==== Sys2Proof/WellFormed.lean ====
section
/-! DEFINITION. When a command is well formed for a block with a given number of units (rule R53). -/

namespace Sys2Proof

/-- The unit a command names; `NOP` names none (rules R53, R102). -/
def Instr.unit? : Instr → Option UnitId
  | .nop => none
  | .init u | .reset u | .enb u _ | .gain u _ | .rdy u | .read u | .nbread u
  | .iatt u | .idet u | .isim u | .graw u _ | .gcnt u | .gstate u => some u

/-- The `UNIT` field "must be < `NUNITS` for a command that names a unit" (rule R53).
Every other operand is right by its type. A command that is not well formed still decodes; executing
it raises `E_UNIT` (rule R102). -/
def Instr.wellFormed (nunits : Nat) (i : Instr) : Bool :=
  match i.unit? with
  | none => true
  | some u => decide (u.val < nunits)

end Sys2Proof
end

