-- ==== Sys2Proof/Decode.lean ====
section
/-! DEFINITION. The command word (rules R52 to R55, R59): field extraction, the total decoder, the encoder, the pseudo-instructions and the assembly text. -/

namespace Sys2Proof

/-- `OPC`, bits 5:0 (rule R53). -/
def opcOf (w : Word) : Nat := (w.extractLsb' 0 6).toNat

/-- `UNIT`, bits 11:8, unsigned (rules R53, R54). -/
def unitOf (w : Word) : UnitId := (w.extractLsb' 8 4).toFin

/-- `B`, bit 12 (rule R53). -/
def bOf (w : Word) : Bool := w.getLsbD 12

/-- `GAIN`'s use of bit 12: 0 = HIGH, 1 = LOW (rule R54). -/
def gainOf (w : Word) : Gain := if w.getLsbD 12 then .low else .high

/-- `CH`, bit 13: 0 = A, 1 = B (rule R54). -/
def chOf (w : Word) : Channel := if w.getLsbD 13 then .b else .a

/-- The mask of an opcode's row: 1 in every bit except the fields the row uses (rule R55). -/
def maskOf (opc : Nat) : Word :=
  match opc with
  | 0x00 => 0xFFFFFFFF
  | 0x03 => 0xFFFFE0FF
  | 0x04 => 0xFFFFE0FF
  | 0x0B => 0xFFFFD0FF
  | _ => 0xFFFFF0FF

/-- The command an opcode selects with the word's operand fields, `none` for an illegal opcode
(rules R54, R55). -/
def select (opc : Nat) (w : Word) : Option Instr :=
  match opc with
  | 0x00 => some .nop
  | 0x01 => some (.init (unitOf w))
  | 0x02 => some (.reset (unitOf w))
  | 0x03 => some (.enb (unitOf w) (bOf w))
  | 0x04 => some (.gain (unitOf w) (gainOf w))
  | 0x05 => some (.rdy (unitOf w))
  | 0x06 => some (.read (unitOf w))
  | 0x07 => some (.nbread (unitOf w))
  | 0x08 => some (.iatt (unitOf w))
  | 0x09 => some (.idet (unitOf w))
  | 0x0A => some (.isim (unitOf w))
  | 0x0B => some (.graw (unitOf w) (chOf w))
  | 0x0C => some (.gcnt (unitOf w))
  | 0x0D => some (.gstate (unitOf w))
  | _ => none

/-- The classes of rule R59, in its order: an illegal opcode, then a reserved field set, then well
formed. Total: every word is an instruction or is rejected by name. -/
def decode (w : Word) : Except CmdError Instr :=
  match select (opcOf w) w with
  | none => .error .opc
  | some i => if w &&& maskOf (opcOf w) = BitVec.ofNat 32 (opcOf w) then .ok i else .error .rsvd

/-- The word of a command word's bytes in the block's byte lanes: lane k carries bits `8k+7 : 8k`
(rule R35). -/
def wordOfLanes (b0 b1 b2 b3 : BitVec 8) : Word := b3 ++ b2 ++ b1 ++ b0

/-- The decoder on bytes: exactly four lanes make a command word, any other number is rejected. -/
def decodeBytes (bytes : List (BitVec 8)) : Option Instr :=
  match bytes with
  | [b0, b1, b2, b3] => (decode (wordOfLanes b0 b1 b2 b3)).toOption
  | _ => none

/-- The instruction read from the low `nbits` bits of `w`, every higher bit 0. -/
def decodeTableWord (nbits w : Nat) : Option Instr :=
  if w % 2 ^ nbits < 2 ^ 32 then (decode (BitVec.ofNat 32 (w % 2 ^ nbits))).toOption else none

/-- The opcode of a command (rule R55). -/
def Instr.opcode : Instr → Nat
  | .nop => 0x00
  | .init _ => 0x01
  | .reset _ => 0x02
  | .enb _ _ => 0x03
  | .gain _ _ => 0x04
  | .rdy _ => 0x05
  | .read _ => 0x06
  | .nbread _ => 0x07
  | .iatt _ => 0x08
  | .idet _ => 0x09
  | .isim _ => 0x0A
  | .graw _ _ => 0x0B
  | .gcnt _ => 0x0C
  | .gstate _ => 0x0D

/-- HIGH = 0, LOW = 1 (rule R11). -/
def Gain.bit : Gain → Bool
  | .high => false
  | .low => true

/-- A = 0, B = 1 (rule R11). -/
def Channel.bit : Channel → Bool
  | .a => false
  | .b => true

/-- One bit at position n of a word, every other bit 0. -/
def bitAt (n : Nat) (b : Bool) : Word := if b then 1#32 <<< n else 0

/-- The command word of an opcode and its fields (rule R53). -/
def assemble (opc : Nat) (u : UnitId) (b ch : Bool) : Word :=
  BitVec.ofNat 32 opc ||| (BitVec.ofNat 32 u.val <<< 8) ||| bitAt 12 b ||| bitAt 13 ch

/-- The word of a command; a field it does not use is 0 (rules R53, R55, R80 to R99). -/
def encode : Instr → Word
  | .nop => assemble 0x00 0 false false
  | .init u => assemble 0x01 u false false
  | .reset u => assemble 0x02 u false false
  | .enb u b => assemble 0x03 u b false
  | .gain u g => assemble 0x04 u g.bit false
  | .rdy u => assemble 0x05 u false false
  | .read u => assemble 0x06 u false false
  | .nbread u => assemble 0x07 u false false
  | .iatt u => assemble 0x08 u false false
  | .idet u => assemble 0x09 u false false
  | .isim u => assemble 0x0A u false false
  | .graw u ch => assemble 0x0B u false ch.bit
  | .gcnt u => assemble 0x0C u false false
  | .gstate u => assemble 0x0D u false false

/-- The expansions of rule R63. -/
def Pseudo.expand : Pseudo → Instr
  | .imode u true => .iatt u
  | .imode u false => .idet u
  | .gainhi u => .gain u .high
  | .gainlo u => .gain u .low
  | .enbon u => .enb u true
  | .enboff u => .enb u false

/-- A unit operand in the assembly syntax: `u` and the decimal number (rule R62). -/
def unitText (u : UnitId) : String := "u" ++ toString u.val

/-- The assembly text of a command: the mnemonic, then UNIT, B or gain, CH, separated by commas
(rule R62). -/
def Instr.text : Instr → String
  | .nop => "NOP"
  | .init u => "INIT " ++ unitText u
  | .reset u => "RESET " ++ unitText u
  | .enb u b => "ENB " ++ unitText u ++ ", " ++ (if b then "1" else "0")
  | .gain u g => "GAIN " ++ unitText u ++ ", " ++ (match g with | .high => "HIGH" | .low => "LOW")
  | .rdy u => "RDY " ++ unitText u
  | .read u => "READ " ++ unitText u
  | .nbread u => "NBREAD " ++ unitText u
  | .iatt u => "IATT " ++ unitText u
  | .idet u => "IDET " ++ unitText u
  | .isim u => "ISIM " ++ unitText u
  | .graw u ch => "GRAW " ++ unitText u ++ ", " ++ (match ch with | .a => "A" | .b => "B")
  | .gcnt u => "GCNT " ++ unitText u
  | .gstate u => "GSTATE " ++ unitText u

end Sys2Proof
end

