-- ==== Sys2Proof/Machine/State.lean ====
section
/-! DEFINITION. The state of MDHX-PE as plain data (10_state.md), the reasons a step can stop, and the state after power-on reset (rule R122). -/

namespace Sys2Proof.Machine

/-- Why the machine stops with a fault. The spec gives this hardware no stop of its own: an illegal
word is a command error and a rejected bus access an error response, and the machine goes on. -/
inductive Fault where
  /-- Raised by a command's meaning when the foreground position is not a line of that command's
  pseudocode (idle among them), and by the foreground when a command in the middle of its execution
  stands in `CMD` as an illegal word. No rule of the spec puts the sequencer there
  (`Sys2Proof.Machine.PositionOk` rules it out and every step keeps that invariant). Safe: the model
  stops where the hardware has no behaviour. -/
  | offProgram
  deriving DecidableEq, Repr

/-- Why a step refuses. -/
inductive Refusal where
  /-- Raised only by an arm of `exec` that has no meaning yet; this model has none. Safe. -/
  | notModelled (mnemonic : String)
  deriving DecidableEq, Repr

/-- The bank `U[u]` of one unit (rule R26). -/
structure UnitBank where
  /-- `CFG`: pins configured by `INIT`. -/
  cfg : Bool
  /-- `enB`: channel B is in the read rotation. -/
  enB : Bool
  /-- `gain`: the gain of channel A. -/
  gain : Gain
  /-- `nextA`: the next exchange reads channel A. -/
  nextA : Bool
  /-- `cnt`: count of completed reads, modulo 2^32. -/
  cnt : Word
  /-- `slotV`: the unit is attached (rule R12). -/
  slotV : Bool
  /-- `slot`: the slot it holds; 0 when `slotV = 0`. -/
  slot : SlotId
  /-- `inH`: an acquisition of the unit is in progress. -/
  inH : Bool
  /-- `last`: channel serviced by the most recent acquisition. -/
  last : Channel
  /-- `raw[A]`, two's complement. -/
  rawA : Word
  /-- `raw[B]`, two's complement. -/
  rawB : Word
  deriving DecidableEq, Repr

/-- One entry of the registry (rule R28). -/
structure Slot where
  /-- `SLOT_UNIT[i]`; stale while `occ` is false. -/
  unit : UnitId
  /-- `OCC[i]`: occupied and armed. -/
  occ : Bool
  /-- `PEND[i]`: a falling edge is latched and not yet dispatched. -/
  pend : Bool
  deriving DecidableEq, Repr

/-- The clock output `PD_SCK[u]` (rule R30). -/
structure SckPin where
  /-- The block drives the pin. -/
  drv : Bool
  /-- The level; unspecified while `drv` is false. -/
  lvl : Bool
  deriving DecidableEq, Repr

/-- What SELECT gives one acquisition (rule R85): its local variables ch, nA' and k. -/
structure Frame where
  ch : Channel
  nextA : Bool
  k : Nat
  deriving DecidableEq, Repr

/-- The line of EXCHANGE that executes next (rule R72); the argument is the local variable b. -/
inductive Exch where
  /-- `SHIFT <- 0` -/
  | clear
  /-- data pulse: `PinWrite(PD_SCK[u], 1)` -/
  | dataHigh
  /-- data pulse: `Wait(T_H)` -/
  | dataSettle
  /-- data pulse: `b <- PinRead(DOUT[u])` -/
  | dataSample
  /-- data pulse: `PinWrite(PD_SCK[u], 0)` -/
  | dataLow (b : Bool)
  /-- data pulse: `Wait(T_L)` -/
  | dataRest (b : Bool)
  /-- data pulse: `SHIFT <- {SHIFT[22:0], b}` -/
  | dataShift (b : Bool)
  /-- extra pulse: `PinWrite(PD_SCK[u], 1)` -/
  | extraHigh
  /-- extra pulse: `Wait(T_H)` -/
  | extraSettle
  /-- extra pulse: `PinWrite(PD_SCK[u], 0)` -/
  | extraLow
  /-- extra pulse: `Wait(T_L)` -/
  | extraRest
  /-- `return SHIFT` -/
  | ret
  deriving DecidableEq, Repr

/-- The line of ACQUIRE that executes next, with the local variables it still needs (rule R88). -/
inductive Acq where
  /-- `ENG_U <- u; U[u].inH <- 1` -/
  | enter
  /-- `(ch, nA', k) <- SELECT(...)` -/
  | select
  /-- a line of `EXCHANGE(u, k)` -/
  | exch (f : Frame) (x : Exch)
  /-- the four writes that commit the reading v -/
  | commit (f : Frame) (v : BitVec 24)
  /-- `U[u].inH <- 0; ENG_U <- none` -/
  | release (ch : Channel)
  /-- `return ch` -/
  | ret (ch : Channel)
  deriving DecidableEq, Repr

/-- The line of PWRCYCLE that executes next (rule R77). -/
inductive Pwr where
  /-- `ENG_U <- u` -/
  | engOn
  /-- `PinWrite(PD_SCK[u], 1)` -/
  | high
  /-- `Wait(T_PD)` -/
  | hold
  /-- `PinWrite(PD_SCK[u], 0)` -/
  | low
  /-- `Wait(T_PU)` -/
  | settle
  /-- `ENG_U <- none` -/
  | engOff
  deriving DecidableEq, Repr

/-- The foreground micro-position `FGPOS` (rule R17): idle, or the line of the command in `CMD` that
executes next, with the local variables it still needs. The unit is the `UNIT` field of `CMD`. -/
inductive FgPos where
  /-- `IDLE` -/
  | idle
  /-- the first microstep of an accepted command, before its checks (rule R102) -/
  | start
  /-- `INIT`, after its yield: the first line of `RESET_BODY` (rule R81) -/
  | resetBody
  /-- `DETACH_BODY`, label `wait`, after its yield (rule R94) -/
  | detWait
  /-- `DETACH_BODY`, label `dereg`: the start of the masked block -/
  | deregEnter
  /-- `i <- U[u].slot` -/
  | deregSlot
  /-- `OCC[i] <- 0; PEND[i] <- 0` -/
  | deregClear (i : SlotId)
  /-- the end of the masked block -/
  | deregExit
  /-- `U[u].slotV <- 0; U[u].slot <- 0`, after the yield -/
  | clearSlot
  /-- `RESET_BODY`: the start of the masked power cycle (rule R82) -/
  | pwrEnter
  /-- a line of `PWRCYCLE(u)`, in `RESET_BODY` or in `IATT` -/
  | pwr (p : Pwr)
  /-- the end of the masked power cycle -/
  | pwrExit
  /-- `RESET_BODY`: the defaults -/
  | defaults
  /-- `READ`, label `poll`: the start of the masked block (rule R91) -/
  | pollEnter
  /-- `rdy <- (PinRead(DOUT[u]) == 0)` -/
  | pollCheck
  /-- a line of `ACQUIRE(u)`, in `READ` or in `NBREAD` -/
  | acq (a : Acq)
  /-- the end of the masked block; `some ch` when an acquisition ran, `none` when not ready -/
  | acqExit (r : Option Channel)
  /-- after the masked block: `complete(ch)`, or `READ`'s wait -/
  | acqDone (r : Option Channel)
  /-- `IATT`: the check and the arming (rule R93) -/
  | arm
  /-- `IATT`: `U[u].nextA <- 1` -/
  | attachNext
  /-- `IATT`: the end of the masked block -/
  | attachExit (fail : Bool)
  /-- `IATT`: `complete(fail ? 0 : 1)` -/
  | attachDone (fail : Bool)
  deriving DecidableEq, Repr

/-- The line of the dispatch body that executes next (rule R111). -/
inductive IrqLine where
  /-- a line of `ACQUIRE(u)` -/
  | acq (a : Acq)
  /-- `exit` (rule R112) -/
  | exit
  deriving DecidableEq, Repr

/-- The IRQ position the sequencer holds while `CTX = IRQ` (rule R15): the slot being dispatched, the
unit latched at entry, and the line. -/
structure IrqPos where
  slot : SlotId
  unit : UnitId
  line : IrqLine
  deriving DecidableEq, Repr

/-- One element of the interleaving of rule R43: a sequencer microstep, a host access, or an
environment change. A power-on reset is the only other thing the outside world can do (rule R122). -/
inductive Event where
  /-- the sequencer takes one microstep -/
  | seq
  /-- `MemRead(addr, n)` -/
  | hostRead (addr n : Nat)
  /-- `MemWrite(addr, n, v)` -/
  | hostWrite (addr n : Nat) (v : Word)
  /-- the device of unit u drives `DOUT[u]` to a level (rule R69) -/
  | dout (u : UnitId) (lvl : Bool)
  /-- power-on reset -/
  | powerOn
  deriving DecidableEq, Repr

/-- What the block answers on the host bus (rules R33, R36): a bus error or not, and the data of a
read. -/
structure BusResp where
  error : Bool
  data : Word
  deriving DecidableEq, Repr

/-- One event on a unit's pins (rule R5): a clock edge, which is a `PinWrite` of the clock (rule R38); a
data sample of an exchange; or the clock pin made an output driven low by `INIT`, which is no clock edge
(rule R81: the first edge is the power cycle's rising one). -/
inductive PinEvent where
  | drivenLow (u : UnitId)
  | edge (u : UnitId) (lvl : Bool)
  | sample (u : UnitId) (lvl : Bool)
  deriving DecidableEq, Repr

/-- The ghost value `DEVSEL[u]` of rule R70: the channel and gain the device presents on the conversion
the next frame reads. -/
inductive DevSel where
  | aHigh
  | aLow
  | b
  | unknown
  deriving DecidableEq, Repr

/-- What the model carries beside the block's state. No rule of the block reads any of it. -/
structure Ghost where
  /-- `DEVSEL[u]`, the spec's own ghost state for claims (rule R70). -/
  devsel : Vector DevSel 16
  /-- The unit of the exchange in progress was ready when it started (rule R70). -/
  exchReady : Bool
  /-- The minimum durations, in nanoseconds, of the `Wait`s executed so far, summed over both contexts
  (rules R10, R79). DESIGN CHOICE (notes/assumptions/14.md): a dispatch that runs while FG's `Wait` is
  still elapsing is counted as if it ran after it. -/
  elapsed : Nat
  /-- The pin waveform so far, latest event first (rule R5). -/
  wave : List PinEvent
  /-- How many free values have been drawn (Config). -/
  draws : Nat
  deriving DecidableEq, Repr

/-- The state of MDHX-PE. `CTX` is the presence of an IRQ position and `STATUS.BUSY` is
`FGPOS ≠ IDLE`; both are stored once (rules R15, R17). -/
structure State where
  /-- The implementation's parameters (rule R7), constant; `CAP` shows two of them. -/
  params : Params
  /-- `IM`, the global interrupt mask (rule R16). -/
  im : Bool
  /-- The IRQ position; `CTX = IRQ` exactly when there is one (rule R15). -/
  irq : Option IrqPos
  /-- `FGPOS` (rule R17). -/
  fg : FgPos
  /-- `CMD` (rule R19). -/
  cmd : Word
  /-- `STATUS.DONE` (rule R20). -/
  done : Bool
  /-- `STATUS.ERR` (rule R20). -/
  err : Bool
  /-- `STATUS.OVR` (rule R20). -/
  ovr : Bool
  /-- `STATUS.ECODE` (rule R20). -/
  ecode : BitVec 4
  /-- `RESULT` (rule R21). -/
  result : Word
  /-- The registry: `SLOT_UNIT[i]`, `OCC[i]`, `PEND[i]` (rule R28). -/
  slots : Vector Slot 4
  /-- The banks `U[u]` (rule R26); units from `NUNITS` on do not exist
  (notes/assumptions/7.md). -/
  units : Vector UnitBank 16
  /-- `PD_SCK[u]` (rule R30). -/
  sck : Vector SckPin 16
  /-- `DOUT[u]` (rule R30). -/
  dout : Vector Bool 16
  /-- `ENG_U` (rule R31). -/
  engU : Option UnitId
  /-- `SHIFT` (rule R31). -/
  shift : BitVec 24
  /-- `BITCNT`, 0 to 24 (rule R31). -/
  bitcnt : Nat
  /-- `XCNT`, 0 to 3 (rule R31). -/
  xcnt : Nat
  /-- The rest of the interleaving: which of host, environment and sequencer moves next (rule R43);
  when it is empty the sequencer moves. -/
  sched : List Event
  /-- The block's answer to the last host access that reached it. -/
  resp : Option BusResp
  /-- The model's own record (rules R5, R10, R70). -/
  ghost : Ghost
  deriving DecidableEq, Repr

/-- `U[u]` after power-on (rules R26, R122). -/
def UnitBank.powerOn : UnitBank :=
  { cfg := false, enB := false, gain := .high, nextA := true, cnt := 0, slotV := false, slot := 0
    inH := false, last := .a, rawA := 0, rawB := 0 }

/-- The state after power-on for given parameters (rule R122).
DESIGN CHOICE where the spec gives no value: `PD_SCK[u].lvl`, `SHIFT`, `BITCNT`, `XCNT` are 0 and
every `DOUT[u]` is 1 (notes/assumptions/1.md). -/
def State.powerOn (p : Params) : State :=
  { params := p
    im := false, irq := none, fg := .idle
    cmd := 0, done := false, err := false, ovr := false, ecode := 0, result := 0
    slots := Vector.replicate 4 { unit := 0, occ := false, pend := false }
    units := Vector.replicate 16 UnitBank.powerOn
    sck := Vector.replicate 16 { drv := false, lvl := false }
    dout := Vector.replicate 16 true
    engU := none, shift := 0, bitcnt := 0, xcnt := 0
    sched := [], resp := none
    ghost := { devsel := Vector.replicate 16 .unknown, exchReady := false, elapsed := 0, wave := []
               draws := 0 } }

/-- The machine right after reset. -/
def State.reset : State := State.powerOn Params.testVectors

end Sys2Proof.Machine
end

