-- ==== Sys2Proof/Machine/Ops.lean ====
section
/-! DEFINITION. The shared operations over the state: banks, slots, pins, waits, the mask, the end of a command, command errors, IRQ entry and exit, the edge latch and power-on. -/

namespace Sys2Proof.Machine

/-- What a meaning answers. -/
abbrev Out := Host.Outcome State Fault Refusal

/-! ### Banks, slots and pins -/

/-- Replace the bank `U[u]` by its image under f. -/
def State.modUnit (s : State) (u : UnitId) (f : UnitBank → UnitBank) : State :=
  { s with units := s.units.put u (f (s.units.look u)) }

/-- Replace the registry entry of slot i by its image under f. -/
def State.modSlot (s : State) (i : SlotId) (f : Slot → Slot) : State :=
  { s with slots := s.slots.put i (f (s.slots.look i)) }

/-- `U[u].raw[ch]` (rule R26). -/
def UnitBank.raw (b : UnitBank) (ch : Channel) : Word :=
  match ch with
  | .a => b.rawA
  | .b => b.rawB

/-- `U[u].raw[ch] <- v`. -/
def UnitBank.setRaw (b : UnitBank) (ch : Channel) (v : Word) : UnitBank :=
  match ch with
  | .a => { b with rawA := v }
  | .b => { b with rawB := v }

/-- The lowest slot that satisfies p (rules R93, R110). -/
def lowestSlot (p : Slot → Bool) (slots : Vector Slot 4) : Option SlotId :=
  slotOrder.find? fun i => p (slots.look i)

/-- `PinRead(DOUT[u])`: the level at this microstep (rule R10). Reading has no side effect (rule R64). -/
def State.pinRead (s : State) (u : UnitId) : Bool := s.dout.look u

/-- `PinWrite(PD_SCK[u], lvl)` (rule R10); the waveform records the edge (rule R38). -/
def State.pinWrite (s : State) (u : UnitId) (lvl : Bool) : State :=
  { s with
    sck := s.sck.put u { s.sck.look u with lvl := lvl }
    ghost := { s.ghost with wave := .edge u lvl :: s.ghost.wave } }

/-- `INIT`'s `PD_SCK[u].drv <- 1; PD_SCK[u].lvl <- 0` (rule R81). The waveform records that the pin was
driven low, which is no clock edge. -/
def State.driveLow (s : State) (u : UnitId) : State :=
  { s with
    sck := s.sck.put u { drv := true, lvl := false }
    ghost := { s.ghost with wave := .drivenLow u :: s.ghost.wave } }

/-- `Wait(t)`: writes no state of the block and bounds nothing from above (rule R10); the model counts
the lower bound. DESIGN CHOICE (notes/assumptions/14.md): it is one microstep and leaves no pending
delay, so a dispatch that becomes eligible while FG waits is entered after it, and `elapsed` adds the
waits of FG and of dispatches as if they never overlapped. -/
def State.wait (s : State) (t : Nat) : State :=
  { s with ghost := { s.ghost with elapsed := s.ghost.elapsed + t } }

/-! ### The foreground position, the mask and the end of a command -/

/-- `FGPOS <- p`. -/
def State.goto (s : State) (p : FgPos) : State := { s with fg := p }

/-- The start of a `masked` block in FG: `IM <- 1` (rules R10, R16). -/
def State.mask (s : State) : State := { s with im := true }

/-- The end of a `masked` block in FG: `IM <- 0` (rules R10, R16). -/
def State.unmask (s : State) : State := { s with im := false }

/-- `complete(res)` (rule R61). -/
def State.complete (s : State) (res : Word) : State :=
  { s with result := res, done := true, fg := .idle }

/-- The code written to `STATUS.ECODE` (rule R101). -/
def errorCode : CmdError → BitVec 4
  | .opc => 1
  | .rsvd => 2
  | .unit => 3
  | .nocfg => 4
  | .mode => 5

/-- `raise CmdError(code)`, the block's only synchronous exception (rules R61, R100). -/
def State.raise (s : State) (e : CmdError) : State :=
  { s with err := true, ecode := errorCode e, done := true, fg := .idle }

/-- The acceptance of a command word from `IDLE` (rule R19). -/
def State.accept (s : State) (w : Word) : State :=
  { s with cmd := w, done := false, err := false, ecode := 0, fg := .start }

/-- `STATUS.BUSY` (rules R17, R20). -/
def State.busy (s : State) : Bool := decide (s.fg ≠ .idle)

/-- The preemption points of FG (rule R106): waiting at `IDLE`, before a command's checks, after a
`yield`, at the first line of a `masked` block and right after one. -/
def FgPos.preemptible : FgPos → Bool
  | .idle | .start | .resetBody | .detWait | .deregEnter | .clearSlot | .pwrEnter | .defaults
  | .pollEnter | .acqDone _ | .attachDone _ => true
  | .deregSlot | .deregClear _ | .deregExit | .pwr _ | .pwrExit | .pollCheck | .acq _ | .acqExit _
  | .arm | .attachNext | .attachExit _ => false

/-! ### Taking an interrupt and returning from it -/

/-- The slot whose dispatch is entered as the sequencer's next microstep, if any (rule R110): `CTX = FG`,
`IM = 0`, FG at a preemption point, and the lowest pending slot. -/
def State.irqReady (s : State) : Option SlotId :=
  if s.irq.isNone && !s.im && s.fg.preemptible then lowestSlot (·.pend) s.slots else none

/-- The IRQ entry microstep for slot i (rule R110): `CTX <- IRQ; IM <- 1; PEND[i] <- 0;
u <- SLOT_UNIT[i]`. `FGPOS` stays in place. -/
def State.irqEnter (s : State) (i : SlotId) : State :=
  { s with
    irq := some { slot := i, unit := (s.slots.look i).unit, line := .acq .enter }
    im := true
    slots := s.slots.put i { s.slots.look i with pend := false } }

/-- The IRQ exit microstep (rule R112): `IM <- 0; CTX <- FG`. FG resumes where it was. -/
def State.irqExit (s : State) : State := { s with im := false, irq := none }

/-! ### The environment -/

/-- What a falling edge of `DOUT[w]` does to one slot (rule R108): latched when the slot is armed for w
and the engine is not operating w. -/
def Slot.latch (engU : Option UnitId) (w : UnitId) (sl : Slot) : Slot :=
  if sl.occ && decide (sl.unit = w) && decide (engU ≠ some w) then { sl with pend := true } else sl

/-- A function on every slot. -/
def mapSlots (f : Slot → Slot) (v : Vector Slot 4) : Vector Slot 4 :=
  #v[f (v.look 0), f (v.look 1), f (v.look 2), f (v.look 3)]

/-- The edge latch (rule R108), whatever `IM` and `CTX`. -/
def State.latchEdge (s : State) (w : UnitId) : State :=
  { s with slots := mapSlots (Slot.latch s.engU w) s.slots }

/-- An environment step that drives `DOUT[w]` to lvl (rules R69, R108): a change from 1 to 0 works the
edge latch, a rising edge or an unchanged level does nothing more. A unit number from `NUNITS` on
names no pin, and nothing happens (notes/assumptions/8.md). -/
def State.drive (s : State) (w : UnitId) (lvl : Bool) : State :=
  if s.params.nunits ≤ w.val then s
  else
    let t := { s with dout := s.dout.put w lvl }
    if s.dout.look w && !lvl then t.latchEdge w else t

/-- Power-on reset arriving as an input (rule R122): the state after power-on for the same
parameters. The devices' data lines are the environment's; the undriven clock levels and the
engine's working registers take free values (93 entries U1, U2); the interleaving, the waveform and
the time go on (notes/assumptions/13.md). -/
def State.powerOnReset (s : State) : State :=
  { State.powerOn s.params with
    dout := s.dout
    sck := Vector.ofFn fun u : UnitId =>
      { drv := false, lvl := (Config.freeLevels s.ghost.draws).getLsbD u.val }
    shift := Config.freeShift s.ghost.draws
    bitcnt := (Config.freeBitcnt s.ghost.draws).val
    xcnt := (Config.freeXcnt s.ghost.draws).val
    sched := s.sched
    ghost := { s.ghost with
      devsel := Vector.replicate 16 .unknown, exchReady := false, draws := s.ghost.draws + 1 } }

end Sys2Proof.Machine
end

