-- ==== Sys2Proof/Machine/Operands.lean ====
section
/-! DEFINITION. The operand forms and their checks: the state-dependent checks of a command (rule R102), SELECT (rule R85) and the sign extension (rule R87). -/

namespace Sys2Proof.Machine

/-- `E_UNIT`: the unit does not exist (rules R101, R102). -/
def checkUnit (s : State) (u : UnitId) : Option CmdError :=
  if s.params.nunits ≤ u.val then some .unit else none

/-- `E_UNIT`, then `E_NOCFG`: the unit does not exist, or `INIT` has not configured it (rule R102). -/
def checkCfg (s : State) (u : UnitId) : Option CmdError :=
  if s.params.nunits ≤ u.val then some .unit
  else if !(s.units.look u).cfg then some .nocfg
  else none

/-- `E_UNIT`, `E_NOCFG`, then `E_MODE`: the unit is attached (rule R102). -/
def checkMode (s : State) (u : UnitId) : Option CmdError :=
  if s.params.nunits ≤ u.val then some .unit
  else if !(s.units.look u).cfg then some .nocfg
  else if (s.units.look u).slotV then some .mode
  else none

/-- The first microstep of a command (rule R102): a failed check raises its error and nothing of the
command runs, otherwise the command's first line runs in this same microstep. -/
def checked (c : Option CmdError) (s : State) (firstLine : State) : State :=
  match c with
  | some e => s.raise e
  | none => firstLine

/-- SELECT(enB, nextA, gain) (rule R85): the channel this acquisition services, `nextA` after it, and
the extra-pulse count. -/
def selectFrame (enB nextA : Bool) (gain : Gain) : Frame :=
  let nA := if enB then !nextA else true
  { ch := if nextA then .a else .b
    nextA := nA
    k := if !nA then 2 else match gain with
      | .high => 1
      | .low => 3 }

/-- `sext_32` of a 24-bit pattern (rule R87). -/
def sext32 (v : BitVec 24) : Word :=
  if v.getLsbD 23 then 0xFF000000 ||| v.setWidth 32 else v.setWidth 32

/-- `SHIFT <- {SHIFT[22:0], b}` (rule R72). -/
def shiftIn (v : BitVec 24) (b : Bool) : BitVec 24 := v.extractLsb' 0 23 ++ BitVec.ofBool b

/-- The device selection k extra pulses ask for (rules R50, R66, R70). -/
def devSelOf (k : Nat) : DevSel :=
  match k with
  | 1 => .aHigh
  | 2 => .b
  | 3 => .aLow
  | _ => .unknown

/-- A channel as the result of `READ` and `NBREAD`: 0 = A, 1 = B (rule R61). -/
def channelWord : Channel → Word
  | .a => 0
  | .b => 1

/-- A bool as a 32-bit result. -/
def boolWord (b : Bool) : Word := if b then 1 else 0

end Sys2Proof.Machine
end

