-- ==== Sys2Proof/Machine/Flags.lean ====
section
/-! DEFINITION. The flag words the host reads: `STATUS`, `OCC`, `SLOTMAP`, `CAP` (rules R20 to R24) and the `GSTATE` word (rule R99). -/

namespace Sys2Proof.Machine

/-- `STATUS`, every field (rule R20); bits 7:6 and 31:12 read as 0. -/
def State.status (s : State) : Word :=
  bitAt 0 s.busy ||| bitAt 1 s.done ||| bitAt 2 s.err ||| bitAt 3 s.ovr |||
  bitAt 4 s.im ||| bitAt 5 s.irq.isSome ||| (s.ecode.setWidth 32 <<< 8)

/-- Register `OCC` (rule R22): bit i is `OCC[i]`, bit 4+i is `PEND[i]`. -/
def State.occWord (s : State) : Word :=
  bitAt 0 (s.slots.look 0).occ ||| bitAt 1 (s.slots.look 1).occ |||
  bitAt 2 (s.slots.look 2).occ ||| bitAt 3 (s.slots.look 3).occ |||
  bitAt 4 (s.slots.look 0).pend ||| bitAt 5 (s.slots.look 1).pend |||
  bitAt 6 (s.slots.look 2).pend ||| bitAt 7 (s.slots.look 3).pend

/-- Register `SLOTMAP` (rule R23): bits `4i+3 : 4i` are `SLOT_UNIT[i]`, stale or not. -/
def State.slotmapWord (s : State) : Word :=
  BitVec.ofNat 32 (s.slots.look 0).unit.val ||| (BitVec.ofNat 32 (s.slots.look 1).unit.val <<< 4) |||
  (BitVec.ofNat 32 (s.slots.look 2).unit.val <<< 8) ||| (BitVec.ofNat 32 (s.slots.look 3).unit.val <<< 12)

/-- `IRQ_CAPABLE` as `CAP` shows it: bit u for u < `NUNITS`, 0 above (rule R24). -/
def capableBits (p : Params) : BitVec 16 := p.irqCapable &&& BitVec.ofNat 16 (2 ^ p.nunits - 1)

/-- Register `CAP` (rule R24): bits 4:0 `NUNITS`, bits 10:8 `NSLOTS`, bits 31:16 `IRQ_CAPABLE`. -/
def State.capWord (s : State) : Word :=
  (BitVec.ofNat 5 s.params.nunits).setWidth 32 ||| (BitVec.ofNat 32 nslots <<< 8) |||
  ((capableBits s.params).setWidth 32 <<< 16)

/-- The `GSTATE` word of unit u (rule R99). -/
def State.gstateWord (s : State) (u : UnitId) : Word :=
  let b := s.units.look u
  bitAt 0 b.cfg ||| bitAt 1 b.enB ||| bitAt 2 b.gain.bit ||| bitAt 3 b.nextA ||| bitAt 4 b.slotV |||
  (BitVec.ofNat 32 b.slot.val <<< 5) ||| bitAt 7 b.inH ||| bitAt 8 b.last.bit |||
  bitAt 9 (s.params.capable u) ||| bitAt 10 (s.pinRead u) |||
  bitAt 11 ((s.sck.look u).drv && (s.sck.look u).lvl) ||| bitAt 12 (s.sck.look u).drv

end Sys2Proof.Machine
end

