-- ==== Sys2Proof/Machine/Bus.lean ====
section
/-! DEFINITION. The host register window (20_memory.md): decoding of an access, reads and writes. -/

namespace Sys2Proof.Machine

/-- The access reaches the block: its address lies in the 64-byte window at `BASE` (rules R18, R37). -/
def inWindow (base addr : Nat) : Bool := decide (base ≤ addr) && decide (addr < base + 64)

/-- The access reaches a register: 4 bytes wide, at a multiple of 4, at most 0x14; any other access to the
window is a bus error (rules R33, R36, R37). -/
def reachesRegister (off n : Nat) : Bool :=
  decide (n = 4) && decide (off % 4 = 0) && decide (off ≤ 0x14)

/-- The value of the register at a mapped offset (rule R18). -/
def State.readReg (s : State) (off : Nat) : Word :=
  match off with
  | 0x00 => s.cmd
  | 0x04 => s.status
  | 0x08 => s.result
  | 0x0C => s.occWord
  | 0x10 => s.slotmapWord
  | 0x14 => s.capWord
  | _ => 0

/-- A write to `CMD` (rule R19): accepted from `IDLE`, otherwise dropped with `STATUS.OVR` set. -/
def State.writeCmd (s : State) (v : Word) : State :=
  if s.busy then { s with ovr := true } else s.accept v

/-- A write to `STATUS` (rule R20): bit 3 written 1 clears `OVR`, every other bit is ignored. -/
def State.writeStatus (s : State) (v : Word) : State :=
  if v.getLsbD 3 then { s with ovr := false } else s

/-- A write to the register at a mapped offset; a read-only register ignores it (rules R18, R38). -/
def State.writeReg (s : State) (off : Nat) (v : Word) : State :=
  match off with
  | 0x00 => s.writeCmd v
  | 0x04 => s.writeStatus v
  | _ => s

/-- `MemRead(addr, n)`: no side effect on the block (rule R38); the answer is the register's value, or a
bus error with data 0 (rule R36). Outside the window the access does not reach the block. -/
def State.hostRead (s : State) (addr n : Nat) : State :=
  if inWindow s.params.base addr then
    if reachesRegister (addr - s.params.base) n then
      { s with resp := some { error := false, data := s.readReg (addr - s.params.base) } }
    else { s with resp := some { error := true, data := 0 } }
  else s

/-- `MemWrite(addr, n, v)` (rules R33, R36, R37). -/
def State.hostWrite (s : State) (addr n : Nat) (v : Word) : State :=
  if inWindow s.params.base addr then
    if reachesRegister (addr - s.params.base) n then
      { s.writeReg (addr - s.params.base) v with resp := some { error := false, data := 0 } }
    else { s with resp := some { error := true, data := 0 } }
  else s

end Sys2Proof.Machine
end

