-- ==== Sys2Proof/Machine/Engine.lean ====
section
/-! DEFINITION. The internal microprograms: EXCHANGE (rule R72), PWRCYCLE (rule R77) and ACQUIRE (rule R88), one microstep at a time, and the dispatch body (rule R111). -/

namespace Sys2Proof.Machine

/-- What an EXCHANGE microstep leaves to do: another line, or the returned 24-bit pattern. -/
inductive ExchNext where
  | more (x : Exch)
  | done (v : BitVec 24)
  deriving DecidableEq, Repr

/-- What an ACQUIRE microstep leaves to do: another line, or the returned channel. -/
inductive AcqNext where
  | more (a : Acq)
  | done (ch : Channel)
  deriving DecidableEq, Repr

/-- The line after a data pulse: another data pulse, or the first extra pulse after the 24th. -/
def afterDataPulse (s : State) : Exch := if s.bitcnt < dataBits then .dataHigh else .extraHigh

/-- The line after an extra pulse: another extra pulse, or the return after the k-th. -/
def afterExtraPulse (k : Nat) (s : State) : Exch := if s.xcnt < k then .extraHigh else .ret

/-- One microstep of EXCHANGE(u, k) (rules R71, R72). `BITCNT` and `XCNT` count the pulses begun. At the
return the working registers become unspecified (rule R31), so they take free values. -/
def exchStep (u : UnitId) (k : Nat) (x : Exch) (s : State) : ExchNext × State :=
  match x with
  | .clear =>
      (.more .dataHigh,
        { s with shift := 0, bitcnt := 0, xcnt := 0,
                 ghost := { s.ghost with exchReady := !s.pinRead u } })
  | .dataHigh => (.more .dataSettle, { s.pinWrite u true with bitcnt := s.bitcnt + 1 })
  | .dataSettle => (.more .dataSample, s.wait s.params.tH)
  | .dataSample =>
      (.more (.dataLow (s.pinRead u)),
        { s with ghost := { s.ghost with wave := .sample u (s.pinRead u) :: s.ghost.wave } })
  | .dataLow b => (.more (.dataRest b), s.pinWrite u false)
  | .dataRest b => (.more (.dataShift b), s.wait s.params.tL)
  | .dataShift b => (.more (afterDataPulse s), { s with shift := shiftIn s.shift b })
  | .extraHigh => (.more .extraSettle, { s.pinWrite u true with xcnt := s.xcnt + 1 })
  | .extraSettle => (.more .extraLow, s.wait s.params.tH)
  | .extraLow => (.more .extraRest, s.pinWrite u false)
  | .extraRest => (.more (afterExtraPulse k s), s.wait s.params.tL)
  | .ret =>
      (.done s.shift,
        { s with
          shift := Config.freeShift s.ghost.draws
          bitcnt := (Config.freeBitcnt s.ghost.draws).val
          xcnt := (Config.freeXcnt s.ghost.draws).val
          ghost := { s.ghost with
            devsel := s.ghost.devsel.put u (if s.ghost.exchReady then devSelOf k else .unknown)
            draws := s.ghost.draws + 1 } })

/-- The four writes that commit a reading, one microstep (rule R88). -/
def UnitBank.commit (b : UnitBank) (f : Frame) (v : BitVec 24) : UnitBank :=
  { b.setRaw f.ch (sext32 v) with cnt := b.cnt + 1, nextA := f.nextA, last := f.ch }

/-- One microstep of ACQUIRE(u) (rule R88). -/
def acqStep (u : UnitId) (a : Acq) (s : State) : AcqNext × State :=
  match a with
  | .enter => (.more .select, { s.modUnit u ({ · with inH := true }) with engU := some u })
  | .select =>
      (.more (.exch (selectFrame (s.units.look u).enB (s.units.look u).nextA (s.units.look u).gain) .clear), s)
  | .exch f x =>
      match exchStep u f.k x s with
      | (.more x', s') => (.more (.exch f x'), s')
      | (.done v, s') => (.more (.commit f v), s')
  | .commit f v => (.more (.release f.ch), s.modUnit u (UnitBank.commit · f v))
  | .release ch => (.more (.ret ch), { s.modUnit u ({ · with inH := false }) with engU := none })
  | .ret ch => (.done ch, s)

/-- One microstep of PWRCYCLE(u) (rule R77); `none` after its last line. Driving the clock low again
returns the device to channel A at HIGH gain (rules R67, R70). -/
def pwrStep (u : UnitId) (p : Pwr) (s : State) : Option Pwr × State :=
  match p with
  | .engOn => (some .high, { s with engU := some u })
  | .high => (some .hold, s.pinWrite u true)
  | .hold => (some .low, s.wait s.params.tPD)
  | .low =>
      let t := s.pinWrite u false
      (some .settle, { t with ghost := { t.ghost with devsel := t.ghost.devsel.put u .aHigh } })
  | .settle => (some .engOff, s.wait s.params.tPU)
  | .engOff => (none, { s with engU := none })

/-- One microstep of the dispatch of a slot (rules R111, R112): ACQUIRE of the latched unit, its
channel discarded, then the exit. -/
def irqStep (p : IrqPos) (s : State) : State :=
  match p.line with
  | .acq a =>
      match acqStep p.unit a s with
      | (.more a', s') => { s' with irq := some { p with line := .acq a' } }
      | (.done _, s') => { s' with irq := some { p with line := .exit } }
  | .exit => s.irqExit

/-- One microstep of ACQUIRE(u) in the foreground. -/
def fgAcquire (u : UnitId) (a : Acq) (s : State) : State :=
  match acqStep u a s with
  | (.more a', s') => s'.goto (.acq a')
  | (.done ch, s') => s'.goto (.acqExit (some ch))

/-- One microstep of PWRCYCLE(u) in the foreground; `next` is the line after it. -/
def fgPowerCycle (u : UnitId) (next : FgPos) (p : Pwr) (s : State) : State :=
  match pwrStep u p s with
  | (some p', s') => s'.goto (.pwr p')
  | (none, s') => s'.goto next

end Sys2Proof.Machine
end

