-- ==== Sys2Proof/Machine/Bodies.lean ====
section
/-! DEFINITION. The bodies that several commands share: DETACH_BODY (rule R94) and RESET_BODY (rule R82), one foreground microstep at a time. -/

namespace Sys2Proof.Machine

/-- The answer of a command whose position may be a line of a shared body: the next state, or the fault
of a position that is no line of the command. -/
def ofLine (r : Option State) : Out :=
  match r with
  | some s => .next s
  | none => .fault .offProgram

/-- DETACH_BODY from its label `wait` (rule R94): deregister once no acquisition of u is in progress,
otherwise wait and yield. -/
def detachWait (u : UnitId) (s : State) : State :=
  if (s.units.look u).inH then (s.wait s.params.tPoll).goto .detWait else s.goto .deregEnter

/-- The first line of DETACH_BODY (rule R94): nothing to do for a unit that is not attached; `after` is
what follows the body up to the next preemption point, in the same microstep. -/
def detachStart (u : UnitId) (after : State → State) (s : State) : State :=
  if (s.units.look u).slotV then detachWait u s else after s

/-- `OCC[i] <- 0; PEND[i] <- 0` (rule R94); `SLOT_UNIT[i]` stays (rule R28). -/
def State.deregister (s : State) (i : SlotId) : State :=
  s.modSlot i ({ · with occ := false, pend := false })

/-- `U[u].slotV <- 0; U[u].slot <- 0` (rule R94). -/
def State.clearSlot (s : State) (u : UnitId) : State :=
  s.modUnit u ({ · with slotV := false, slot := 0 })

/-- One microstep of DETACH_BODY after its first line (rule R94), `none` at a position that is no line
of it. -/
def detachLine (u : UnitId) (after : State → State) (p : FgPos) (s : State) : Option State :=
  match p with
  | .detWait => some (detachWait u s)
  | .deregEnter => some (s.mask.goto .deregSlot)
  | .deregSlot => some (s.goto (.deregClear (s.units.look u).slot))
  | .deregClear i => some ((s.deregister i).goto .deregExit)
  | .deregExit => some (s.unmask.goto .clearSlot)
  | .clearSlot => some (after (s.clearSlot u))
  | _ => none

/-- The defaults RESET_BODY restores (rule R82); `CFG`, `slotV`, `slot` and `inH` stay. -/
def UnitBank.defaults (b : UnitBank) : UnitBank :=
  { b with enB := false, gain := .high, nextA := true, cnt := 0, last := .a, rawA := 0, rawB := 0 }

/-- RESET_BODY up to its first preemption point (rule R82). -/
def resetStart (u : UnitId) (s : State) : State := detachStart u (·.goto .pwrEnter) s

/-- One microstep of RESET_BODY after that (rule R82), `none` at a position that is no line of it. The
defaults and the `complete(0)` of `RESET` and `INIT` are one microstep: no preemption point
stands between them. -/
def resetLine (u : UnitId) (p : FgPos) (s : State) : Option State :=
  match p with
  | .pwrEnter => some (s.mask.goto (.pwr .engOn))
  | .pwr q => some (fgPowerCycle u .pwrExit q s)
  | .pwrExit => some (s.unmask.goto .defaults)
  | .defaults => some ((s.modUnit u UnitBank.defaults).complete 0)
  | p => detachLine u (·.goto .pwrEnter) p s

end Sys2Proof.Machine
end

