-- ==== Sys2Proof/Machine/Unit.lean ====
section
/-! DEFINITION. The unit configuration commands: NOP, INIT, RESET, ENB, GAIN (41_unit_commands.md). -/

namespace Sys2Proof.Machine

/-- `NOP` (rule R80). -/
def execNop (s : State) : Out :=
  match s.fg with
  | .start => .next (s.complete 0)
  | _ => .fault .offProgram

/-- `INIT`'s first microstep after its checks: the clock pin is driven low and `CFG` is set, then the
yield (rule R81). -/
def initStart (u : UnitId) (s : State) : State :=
  ((s.driveLow u).modUnit u ({ · with cfg := true })).goto .resetBody

/-- `INIT u` (rule R81). -/
def execInit (u : UnitId) (s : State) : Out :=
  match s.fg with
  | .start => .next (checked (checkUnit s u) s (initStart u s))
  | .resetBody => .next (resetStart u s)
  | p => ofLine (resetLine u p s)

/-- `RESET u` (rule R82). -/
def execReset (u : UnitId) (s : State) : Out :=
  match s.fg with
  | .start => .next (checked (checkCfg s u) s (resetStart u s))
  | p => ofLine (resetLine u p s)

/-- `ENB u, b` (rule R83). -/
def execEnb (u : UnitId) (b : Bool) (s : State) : Out :=
  match s.fg with
  | .start => .next (checked (checkUnit s u) s ((s.modUnit u ({ · with enB := b })).complete 0))
  | _ => .fault .offProgram

/-- `GAIN u, g` (rule R84). -/
def execGain (u : UnitId) (g : Gain) (s : State) : Out :=
  match s.fg with
  | .start => .next (checked (checkUnit s u) s ((s.modUnit u ({ · with gain := g })).complete 0))
  | _ => .fault .offProgram

end Sys2Proof.Machine
end

