-- ==== Sys2Proof/Machine/Acquisition.lean ====
section
/-! DEFINITION. The acquisition and polling commands: RDY, READ, NBREAD (42_acquisition_commands.md). -/

namespace Sys2Proof.Machine

/-- `RDY u` (rule R90). -/
def execRdy (u : UnitId) (s : State) : Out :=
  match s.fg with
  | .start => .next (checked (checkUnit s u) s (s.complete (boolWord (!s.pinRead u))))
  | _ => .fault .offProgram

/-- `READ`'s first line: an attached unit does no I/O, any other goes on to `poll` (rule R91). -/
def readStart (u : UnitId) (s : State) : State :=
  if (s.units.look u).slotV then s.complete (channelWord (s.units.look u).last) else s.goto .pollEnter

/-- `rdy <- (PinRead(DOUT[u]) == 0)`; the exchange starts in the microstep after it, or the masked block
ends (rule R91). DESIGN CHOICE (notes/assumptions/4.md): when not ready, the line `if rdy: …` whose
condition fails is no microstep of its own. -/
def pollCheck (u : UnitId) (s : State) : State :=
  if s.pinRead u then s.goto (.acqExit none) else s.goto (.acq .enter)

/-- `READ u` (rule R91). -/
def execRead (u : UnitId) (s : State) : Out :=
  match s.fg with
  | .start => .next (checked (checkCfg s u) s (readStart u s))
  | .pollEnter => .next (s.mask.goto .pollCheck)
  | .pollCheck => .next (pollCheck u s)
  | .acq a => .next (fgAcquire u a s)
  | .acqExit r => .next (s.unmask.goto (.acqDone r))
  | .acqDone (some ch) => .next (s.complete (channelWord ch))
  | .acqDone none => .next ((s.wait s.params.tPoll).goto .pollEnter)
  | _ => .fault .offProgram

/-- `NBREAD u` (rule R92). Its first line is a `masked` block, so the checks and `IM <- 1` are one
microstep (rule R102). -/
def execNbread (u : UnitId) (s : State) : Out :=
  match s.fg with
  | .start => .next (checked (checkMode s u) s (s.mask.goto (.acq .enter)))
  | .acq a => .next (fgAcquire u a s)
  | .acqExit (some ch) => .next (s.unmask.goto (.acqDone (some ch)))
  | .acqDone (some ch) => .next (s.complete (channelWord ch))
  | _ => .fault .offProgram

end Sys2Proof.Machine
end

