-- ==== Sys2Proof/Machine/Registry.lean ====
section
/-! DEFINITION. The interrupt registry commands: IATT, IDET, ISIM (43_registry_commands.md). -/

namespace Sys2Proof.Machine

/-- The slot a successful `IATT u` takes, `none` on the three failures: already attached, pin not
capable, registry full (rule R93). -/
def attachSlot (u : UnitId) (s : State) : Option SlotId :=
  if (s.units.look u).slotV || !s.params.capable u then none else lowestSlot (!·.occ) s.slots

/-- The arming of slot i for unit u (rule R93). -/
def State.arm (s : State) (u : UnitId) (i : SlotId) : State :=
  { (s.modSlot i fun _ => { unit := u, occ := true, pend := false }).modUnit u
      ({ · with slotV := true, slot := i }) with engU := some u }

/-- The check and the arming, one microstep (rule R93). DESIGN CHOICE (notes/assumptions/4.md): the second
`if not fail:` is no microstep of its own, taken or not. -/
def attachArm (u : UnitId) (s : State) : State :=
  match attachSlot u s with
  | none => s.goto (.attachExit true)
  | some i => (s.arm u i).goto (.pwr .engOn)

/-- `IATT u` (rule R93). Its first line is a `masked` block, so the checks and `IM <- 1` are one
microstep (rule R102). -/
def execIatt (u : UnitId) (s : State) : Out :=
  match s.fg with
  | .start => .next (checked (checkCfg s u) s (s.mask.goto .arm))
  | .arm => .next (attachArm u s)
  | .pwr p => .next (fgPowerCycle u .attachNext p s)
  | .attachNext => .next ((s.modUnit u ({ · with nextA := true })).goto (.attachExit false))
  | .attachExit f => .next (s.unmask.goto (.attachDone f))
  | .attachDone f => .next (s.complete (boolWord (!f)))
  | _ => .fault .offProgram

/-- `IDET u` (rule R94). -/
def execIdet (u : UnitId) (s : State) : Out :=
  match s.fg with
  | .start => .next (checked (checkUnit s u) s (detachStart u (·.complete 1) s))
  | p => ofLine (detachLine u (·.complete 1) p s)

/-- `ISIM u` (rule R95). -/
def execIsim (u : UnitId) (s : State) : Out :=
  match s.fg with
  | .start => .next (checked (checkUnit s u) s (s.complete (boolWord (s.units.look u).slotV)))
  | _ => .fault .offProgram

end Sys2Proof.Machine
end

