-- ==== Sys2Proof/Machine/Query.lean ====
section
/-! DEFINITION. The query commands: GRAW, GCNT, GSTATE (44_query_commands.md). -/

namespace Sys2Proof.Machine

/-- `GRAW u, ch` (rule R97). -/
def execGraw (u : UnitId) (ch : Channel) (s : State) : Out :=
  match s.fg with
  | .start => .next (checked (checkUnit s u) s (s.complete ((s.units.look u).raw ch)))
  | _ => .fault .offProgram

/-- `GCNT u` (rule R98). -/
def execGcnt (u : UnitId) (s : State) : Out :=
  match s.fg with
  | .start => .next (checked (checkUnit s u) s (s.complete (s.units.look u).cnt))
  | _ => .fault .offProgram

/-- `GSTATE u` (rule R99). -/
def execGstate (u : UnitId) (s : State) : Out :=
  match s.fg with
  | .start => .next (checked (checkUnit s u) s (s.complete (s.gstateWord u)))
  | _ => .fault .offProgram

end Sys2Proof.Machine
end

