-- ==== Sys2Proof/Machine/Dispatch.lean ====
section
/-! DEFINITION. The meaning of every command: one microstep of it, at the line where the foreground stands. -/

namespace Sys2Proof.Machine

def exec (i : Instr) (s : State) : Host.Outcome State Fault Refusal :=
  match i with
  | .nop => Sys2Proof.Machine.execNop s
  | .init u => Sys2Proof.Machine.execInit u s
  | .reset u => Sys2Proof.Machine.execReset u s
  | .enb u b => Sys2Proof.Machine.execEnb u b s
  | .gain u g => Sys2Proof.Machine.execGain u g s
  | .rdy u => Sys2Proof.Machine.execRdy u s
  | .read u => Sys2Proof.Machine.execRead u s
  | .nbread u => Sys2Proof.Machine.execNbread u s
  | .iatt u => Sys2Proof.Machine.execIatt u s
  | .idet u => Sys2Proof.Machine.execIdet u s
  | .isim u => Sys2Proof.Machine.execIsim u s
  | .graw u ch => Sys2Proof.Machine.execGraw u ch s
  | .gcnt u => Sys2Proof.Machine.execGcnt u s
  | .gstate u => Sys2Proof.Machine.execGstate u s

end Sys2Proof.Machine
end

