-- ==== Sys2Proof/Machine/Sequencer.lean ====
section
/-! DEFINITION. The sequencer's microstep, the interleaving of host, environment and sequencer (rule R43), and the loading of a command word. -/

namespace Sys2Proof.Machine

/-- One foreground microstep. At `IDLE` there is none (rule R121). Otherwise the word in `CMD` selects the
command (rules R19, R47); a word that is no command raises its error at the first microstep
(rules R59, R102). -/
def foreground (s : State) : Out :=
  match s.fg with
  | .idle => .next s
  | p =>
      match decode s.cmd with
      | .ok i => exec i s
      | .error e => if p = .start then .next (s.raise e) else .fault .offProgram

/-- One sequencer microstep (rules R105, R109, R110): the dispatch in progress, else the entry of an
eligible dispatch, else the foreground. -/
def sequencer (s : State) : Out :=
  match s.irq with
  | some p => .next (irqStep p s)
  | none =>
      match s.irqReady with
      | some i => .next (s.irqEnter i)
      | none => foreground s

/-- One element of the interleaving (rule R43). -/
def perform (e : Event) (s : State) : Out :=
  match e with
  | .seq => sequencer s
  | .hostRead addr n => .next (s.hostRead addr n)
  | .hostWrite addr n v => .next (s.hostWrite addr n v)
  | .dout u lvl => .next (s.drive u lvl)
  | .powerOn => .next s.powerOnReset

/-- The event at the head of the interleaving; when nothing is left the sequencer moves. -/
def State.nextEvent (s : State) : Event := s.sched.headD .seq

/-- The state without that event. -/
def State.popEvent (s : State) : State := { s with sched := s.sched.tail }

/-- The state in which the command word w has just been accepted and the sequencer's next microstep is
its first: FG at `IDLE` has taken the word (rule R19), no dispatch is running, masked or pending, and
the interleaving gives the sequencer the next move. -/
def State.loadWord (s : State) (w : Word) : State :=
  { s.accept w with
    irq := none
    im := false
    slots := mapSlots ({ · with pend := false }) s.slots
    sched := .seq :: s.sched }

end Sys2Proof.Machine
end

