-- ==== Sys2Proof/Machine/Step.lean ====
section
/-! DEFINITION. One step of MDHX-PE: one element of the interleaving of host accesses, environment changes and sequencer microsteps (rule R43). -/

namespace Sys2Proof.Machine

/-- One step: the head of the interleaving is taken off and performed (rules R39, R43). -/
def step (s : State) : Host.Outcome State Fault Refusal := perform s.nextEvent s.popEvent

/-- The command word in the low `nbits` bits of `w`, placed in `CMD` as an accepted word, so that the very
next step is the first microstep of that command. -/
def State.withFetchWord (s : State) (nbits w : Nat) : State :=
  s.loadWord (BitVec.ofNat 32 (w % 2 ^ nbits))

end Sys2Proof.Machine
end

