-- ==== Sys2Proof/Safety.lean ====
section
/-! DEFINITION. What counts as a safe run: the invariants of the machine (rules R16, R27, R29, R31, R70, R78) and the end of a run (rule R136). -/

namespace Sys2Proof.Machine

/-- The machine takes a next step from s: neither a fault nor a refusal. -/
abbrev Safe (s : State) : Prop := ∃ t, step s = .next t

/-! ### The foreground position -/

/-- The lines of DETACH_BODY after its first (rule R94). -/
def FgPos.inDetach : FgPos → Bool
  | .detWait | .deregEnter | .deregSlot | .deregClear _ | .deregExit | .clearSlot => true
  | _ => false

/-- The lines of RESET_BODY after its first (rule R82). -/
def FgPos.inReset : FgPos → Bool
  | .pwrEnter | .pwr _ | .pwrExit | .defaults => true
  | p => p.inDetach

/-- The positions that are lines of a command's pseudocode (rule R17). -/
def onProgram (i : Instr) (p : FgPos) : Bool :=
  decide (p = .start) ||
  match i with
  | .init _ => decide (p = .resetBody) || p.inReset
  | .reset _ => p.inReset
  | .read _ => match p with
    | .pollEnter | .pollCheck | .acq _ | .acqExit _ | .acqDone _ => true
    | _ => false
  | .nbread _ => match p with
    | .acq _ | .acqExit (some _) | .acqDone (some _) => true
    | _ => false
  | .iatt _ => match p with
    | .arm | .pwr _ | .attachNext | .attachExit _ | .attachDone _ => true
    | _ => false
  | .idet _ => p.inDetach
  | .nop | .enb _ _ | .gain _ _ | .rdy _ | .isim _ | .graw _ _ | .gcnt _ | .gstate _ => false

/-- The word in `CMD` is a command and FG stands at a line of it. -/
def State.onLine (s : State) : Bool :=
  match decode s.cmd with
  | .ok i => onProgram i s.fg
  | .error _ => false

/-- FG is idle, before a command's checks, or at a line of the command in `CMD` (rule R17). -/
abbrev PositionOk (s : State) : Prop := s.fg = .idle ∨ s.fg = .start ∨ s.onLine = true

/-! ### The mask and the contexts -/

/-- `IM` is 1 exactly during a dispatch and inside FG's masked blocks, and a dispatch runs only while FG
stands at a preemption point (rules R16, R106, R113). -/
abbrev MaskOk (s : State) : Prop :=
  s.im = (s.irq.isSome || !s.fg.preemptible) ∧ (s.irq.isSome = true → s.fg.preemptible = true)

/-! ### The engine -/

/-- The lines of ACQUIRE at which its first line has run and its last write has not: `ENG_U = u` and
`U[u].inH = 1` (rule R88). -/
def Acq.holds : Acq → Bool
  | .enter | .ret _ => false
  | .select | .exch _ _ | .commit _ _ | .release _ => true

/-- The unit whose ACQUIRE is between those lines, in either context. -/
def State.acquiring (s : State) : Option UnitId :=
  match s.irq with
  | some p => match p.line with
    | .acq a => if a.holds then some p.unit else none
    | .exit => none
  | none => match s.fg with
    | .acq a => if a.holds then some (unitOf s.cmd) else none
    | _ => none

/-- The unit whose power cycle the foreground is in; `IATT` sets `ENG_U` before PWRCYCLE does
(rules R77, R93). -/
def State.powerCycling (s : State) : Option UnitId :=
  match s.irq, s.fg with
  | none, .pwr .engOn => if opcOf s.cmd = 0x08 then some (unitOf s.cmd) else none
  | none, .pwr _ => some (unitOf s.cmd)
  | _, _ => none

/-- `ENG_U` and `inH` are what the position says (rule R31). -/
abbrev EngineOk (s : State) : Prop :=
  s.engU = (s.acquiring <|> s.powerCycling) ∧
  ∀ u : UnitId, (s.units.look u).inH = decide (s.acquiring = some u)

/-- The lines of EXCHANGE at which the clock is high (rule R72). -/
def Exch.high : Exch → Bool
  | .dataSettle | .dataSample | .dataLow _ | .extraSettle | .extraLow => true
  | _ => false

/-- The unit whose clock the engine holds high. -/
def State.clockHigh (s : State) : Option UnitId :=
  match s.irq, s.fg with
  | some ⟨_, u, .acq (.exch _ x)⟩, _ => if x.high then some u else none
  | some _, _ => none
  | none, .acq (.exch _ x) => if x.high then some (unitOf s.cmd) else none
  | none, .pwr .hold | none, .pwr .low => some (unitOf s.cmd)
  | none, _ => none

/-- A unit's clock is driven exactly when it is configured, and a driven clock is low except in the
high phases of EXCHANGE and PWRCYCLE (rules R30, R78). -/
abbrev PinsOk (s : State) : Prop :=
  ∀ u : UnitId, (s.sck.look u).drv = (s.units.look u).cfg ∧
    ((s.sck.look u).drv = true → (s.sck.look u).lvl = decide (s.clockHigh = some u))

/-! ### The registry -/

/-- The window of `IDET` between its deregistration and its clearing of `slotV` (rules R29, R94). -/
def State.detaching (s : State) : Option UnitId :=
  match s.fg with
  | .deregExit | .clearSlot => some (unitOf s.cmd)
  | _ => none

/-- The unit whose RESET_BODY is past its DETACH_BODY (rule R82). -/
def State.resetting (s : State) : Option UnitId :=
  match s.fg with
  | .pwrEnter | .pwrExit | .defaults => some (unitOf s.cmd)
  | .pwr _ => if opcOf s.cmd = 0x08 then none else some (unitOf s.cmd)
  | _ => none

/-- The invariants of rule R29: (a) a pending slot is occupied, (b) a unit occupies at most one slot,
(c) an occupied slot's unit records it, (d) an attached unit's slot records it, except in the window
of `IDET`. -/
structure RegistryR29 (s : State) : Prop where
  a : ∀ i : SlotId, (s.slots.look i).pend = true → (s.slots.look i).occ = true
  b : ∀ i j : SlotId, (s.slots.look i).occ = true → (s.slots.look j).occ = true → i ≠ j →
    (s.slots.look i).unit ≠ (s.slots.look j).unit
  c : ∀ (i : SlotId) (u : UnitId), (s.slots.look i).occ = true → (s.slots.look i).unit = u →
    (s.units.look u).slotV = true ∧ (s.units.look u).slot = i
  d : ∀ (u : UnitId) (i : SlotId), (s.units.look u).slotV = true → s.detaching ≠ some u →
    (s.units.look u).slot = i → (s.slots.look i).occ = true ∧ (s.slots.look i).unit = u

/-- What the lines of a command know of its unit, so that rule R29 is kept by every step. -/
structure RegistryLines (s : State) : Prop where
  /-- `slot` is 0 when the unit is not attached (rule R26). -/
  noSlot : ∀ u : UnitId, (s.units.look u).slotV = false → (s.units.look u).slot = 0
  /-- An attached unit exists and is configured (rules R93, R111). -/
  attached : ∀ u : UnitId, (s.units.look u).slotV = true →
    u.val < s.params.nunits ∧ (s.units.look u).cfg = true
  /-- `IATT` has checked its unit. -/
  arm : s.fg = .arm →
    (unitOf s.cmd).val < s.params.nunits ∧ (s.units.look (unitOf s.cmd)).cfg = true
  /-- DETACH_BODY runs only on an attached unit. -/
  detach : s.fg.inDetach = true → (s.units.look (unitOf s.cmd)).slotV = true
  /-- Its local variable i is the unit's slot. -/
  local_ : ∀ i, s.fg = .deregClear i → i = (s.units.look (unitOf s.cmd)).slot
  /-- After the deregistration the slot is free. -/
  freed : ∀ (u : UnitId) (i : SlotId), s.detaching = some u → (s.units.look u).slot = i →
    (s.slots.look i).occ = false
  /-- RESET_BODY has detached its unit before its power cycle. -/
  cleared : ∀ u, s.resetting = some u → (s.units.look u).slotV = false
  /-- A dispatch in progress is of an armed slot and of the unit recorded there (rules R110, R111). -/
  dispatch : ∀ p, s.irq = some p → (s.slots.look (p.slot)).occ = true ∧ (s.slots.look (p.slot)).unit = p.unit

/-! ### Readings, status and counters -/

/-- The reading lies in the 24-bit range: bits 31:23 are all equal (rule R27). -/
abbrev InRange24 (w : Word) : Prop := -2 ^ 23 ≤ w.toInt ∧ w.toInt ≤ 2 ^ 23 - 1

/-- Every reading lies in that range (rule R27). -/
abbrev RawOk (s : State) : Prop :=
  ∀ u : UnitId, InRange24 (s.units.look u).rawA ∧ InRange24 (s.units.look u).rawB

/-- `DONE` only while FG is idle, `ERR` only with `DONE`, `ECODE` 0 without `ERR` and 1 to 5 with it
(rules R20, R101). -/
abbrev StatusOk (s : State) : Prop :=
  (s.done = true → s.fg = .idle) ∧ (s.err = true → s.done = true) ∧
  (s.err = false → s.ecode = 0) ∧ (s.err = true → 1 ≤ s.ecode.toNat ∧ s.ecode.toNat ≤ 5)

/-- What SELECT can give: k is 2 exactly when channel B is next, else 1 or 3 (rule R85). -/
abbrev Frame.Ok (f : Frame) : Prop :=
  (f.k = 2 ∧ f.nextA = false) ∨ ((f.k = 1 ∨ f.k = 3) ∧ f.nextA = true)

/-- The counts of the engine at a line of EXCHANGE(u, k) (rule R72): `BITCNT` data pulses and `XCNT`
extra pulses have begun. -/
def Exch.counts (k bitcnt xcnt : Nat) : Exch → Prop
  | .clear => True
  | .dataHigh => bitcnt < 24 ∧ xcnt = 0
  | .dataSettle | .dataSample | .dataLow _ | .dataRest _ | .dataShift _ =>
      1 ≤ bitcnt ∧ bitcnt ≤ 24 ∧ xcnt = 0
  | .extraHigh => bitcnt = 24 ∧ xcnt < k
  | .extraSettle | .extraLow | .extraRest => bitcnt = 24 ∧ 1 ≤ xcnt ∧ xcnt ≤ k
  | .ret => bitcnt = 24 ∧ xcnt = k

/-- The lines of ACQUIRE with the frame and the counts they need. -/
def Acq.FrameOk (s : State) (u : UnitId) : Acq → Prop
  | .exch f x => f.Ok ∧ x.counts f.k s.bitcnt s.xcnt
  | .commit f _ => f.Ok ∧ ((s.ghost.devsel.look u) = .unknown ∨ s.ghost.devsel.look u = devSelOf f.k)
  | _ => True

/-- `BITCNT` stays within 0 to 24 and `XCNT` within 0 to 3, and an acquisition in progress has the frame
SELECT gave it (rules R31, R57, R73). -/
structure CountOk (s : State) : Prop where
  bits : s.bitcnt ≤ 24
  extras : s.xcnt ≤ 3
  irq : ∀ p a, s.irq = some p → p.line = .acq a → a.FrameOk s p.unit
  fg : ∀ a, s.fg = .acq a → a.FrameOk s (unitOf s.cmd)

/-- Unit u is between the engine's selection of the device's next conversion and the block's own update of
`nextA`: at the commit of an ACQUIRE, or from the end of a power cycle's high phase to the line of
`RESET_BODY` or `IATT` that sets `nextA`. -/
def State.reselecting (s : State) (u : UnitId) : Prop :=
  (∃ p f v, s.irq = some p ∧ p.unit = u ∧ p.line = .acq (.commit f v)) ∨
  (unitOf s.cmd = u ∧
    ((∃ f v, s.fg = .acq (.commit f v)) ∨ s.fg = .pwr .settle ∨ s.fg = .pwr .engOff ∨
      s.fg = .pwrExit ∨ s.fg = .defaults ∨ s.fg = .attachNext))

/-- The synchronisation property of rule R70, as every step keeps it. -/
structure SyncOk (s : State) : Prop where
  /-- Whenever the device's selection is known, `nextA` agrees with it. -/
  agrees : ∀ u : UnitId, s.ghost.devsel.look u ≠ .unknown → ¬ s.reselecting u →
    ((s.units.look u).nextA = true ↔ (s.ghost.devsel.look u) = .aHigh ∨ s.ghost.devsel.look u = .aLow)
  /-- From the end of a power cycle's high phase to the line that sets `nextA`, the device selects channel
  A at HIGH gain (rule R67). -/
  cycled : s.fg = .pwr .settle ∨ s.fg = .pwr .engOff ∨ s.fg = .pwrExit ∨ s.fg = .defaults ∨
    s.fg = .attachNext → s.ghost.devsel.look (unitOf s.cmd) = .aHigh

/-- The invariant of the machine: all of the above. -/
structure Inv (s : State) : Prop where
  params : s.params.wf
  position : PositionOk s
  mask : MaskOk s
  engine : EngineOk s
  pins : PinsOk s
  registry : RegistryR29 s
  lines : RegistryLines s
  raw : RawOk s
  status : StatusOk s
  counts : CountOk s
  sync : SyncOk s

/-- The event is a host access that writes a command word: 4 bytes at `BASE` (rules R18, R33). -/
def Event.writesCmd (base : Nat) : Event → Bool
  | .hostWrite addr n _ => decide (addr = base) && decide (n = 4)
  | .seq | .hostRead _ _ | .dout _ _ | .powerOn => false

/-- The levels of the data lines after an event: an existing unit's line follows its device
(rules R30, R69). -/
def Event.levels (nunits : Nat) (e : Event) (dout : Vector Bool 16) : Vector Bool 16 :=
  match e with
  | .dout u lvl => if u.val < nunits then dout.put u lvl else dout
  | .seq | .hostRead _ _ | .hostWrite _ _ _ | .powerOn => dout

/-- The event is a falling edge: it changes an existing unit's line from 1 to 0 (rule R108). -/
def Event.falls (nunits : Nat) (dout : Vector Bool 16) : Event → Bool
  | .dout u lvl => decide (u.val < nunits) && dout.look u && !lvl
  | .seq | .hostRead _ _ | .hostWrite _ _ _ | .powerOn => false

/-- Some event of the list is a falling edge, the lines starting at the given levels. -/
def fallingEdgeLeft (nunits : Nat) (dout : Vector Bool 16) : List Event → Bool
  | [] => false
  | e :: rest => e.falls nunits dout || fallingEdgeLeft nunits (e.levels nunits dout) rest

/-- Some unit is attached (rule R12). -/
def State.anyAttached (s : State) : Bool := (List.finRange 16).any fun u => (s.units.look u).slotV

/-- The end of a run (rule R136): the last command word has completed, so FG is idle and the host has no
command word left to write; no dispatch is running or pending; and, if a unit is attached, the
environment has no falling edge left to deliver. What host and environment have left is the rest of the
interleaving (notes/assumptions/5.md). -/
def State.runEnded (s : State) : Bool :=
  !s.busy && s.sched.all (fun e => !e.writesCmd s.params.base) &&
  s.irq.isNone && slotOrder.all (fun i => !(s.slots.look i).pend) &&
  (!s.anyAttached || !fallingEdgeLeft s.params.nunits s.dout s.sched)

end Sys2Proof.Machine
end

