-- ==== Sys2Proof/Certificates/Slice0/Obligations.lean ====
section
/-! DEFINITION. The statements for the provers, from the numbered rules of spec/. -/

open Sys2Proof Sys2Proof.Machine

namespace Sys2Proof.Claims

/-- A command that ends with the error of code c: nothing else changes (rules R61, R100). -/
abbrev errorEnd (s : State) (c : BitVec 4) : State :=
  { s with err := true, ecode := c, done := true, fg := .idle }

/-- The sequencer has the next move, no dispatch is running and none is eligible: the foreground takes
the next microstep. -/
abbrev FgMoves (s : State) : Prop := s.nextEvent = .seq ∧ s.irq = none ∧ s.irqReady = none

/-- Nothing comes from outside any more, and no dispatch is running, masked out or pending. -/
abbrev Quiet (s : State) : Prop :=
  s.sched = [] ∧ s.irq = none ∧ s.im = false ∧ ∀ i : SlotId, (s.slots.look i).pend = false

/-- FG is before the checks of the accepted command i. -/
abbrev Accepted (s : State) (i : Instr) : Prop := s.fg = .start ∧ s.cmd = encode i

/-- The waveform of one power cycle, latest event first (rule R77). -/
abbrev pwrWave (u : UnitId) : List PinEvent := [.edge u false, .edge u true]

/-- The events of the 24 data pulses of one frame on unit u whose device presents the pattern v, most
significant bit first: per pulse the six lines of EXCHANGE, the level changing before the sample
(rules R65, R72). -/
def dataEvents (u : UnitId) (v : BitVec 24) : List Event :=
  (List.range 24).flatMap fun p =>
    [.seq, .seq, .dout u (v.getLsbD (23 - p)), .seq, .seq, .seq, .seq]

/-- n sequencer microsteps. -/
def seqs (n : Nat) : List Event := List.replicate n .seq

/-- The events of ACQUIRE(u): enter, select and the first line of EXCHANGE, the data pulses, the k extra
pulses, and return, commit, release and return. -/
def acquireEvents (u : UnitId) (v : BitVec 24) (k : Nat) : List Event :=
  seqs 3 ++ (dataEvents u v ++ (seqs (4 * k) ++ seqs 4))

/-- The waveform of one frame, latest event first (rules R49, R73). -/
def frameWave (u : UnitId) (v : BitVec 24) (k : Nat) : List PinEvent :=
  (List.range k).flatMap (fun _ => [.edge u false, .edge u true]) ++
  (List.range 24).flatMap fun b => [.edge u false, .sample u (v.getLsbD b), .edge u true]

/-- The frame of rule R85's table for the flags of a bank, row by row. -/
def tableFrame (b : UnitBank) : Frame :=
  match b.enB, b.nextA, b.gain with
  | false, true, .high => ⟨.a, true, 1⟩
  | false, true, .low => ⟨.a, true, 3⟩
  | false, false, .high => ⟨.b, true, 1⟩
  | false, false, .low => ⟨.b, true, 3⟩
  | true, true, .high => ⟨.a, false, 2⟩
  | true, true, .low => ⟨.a, false, 2⟩
  | true, false, .high => ⟨.b, true, 1⟩
  | true, false, .low => ⟨.b, true, 3⟩

/-- The bank after an acquisition with frame f of the pattern v (rule R88): the serviced channel's
reading, the count, the rotation and `last`; the other channel's reading stays. -/
def acquiredBank (b : UnitBank) (f : Frame) (v : BitVec 24) : UnitBank :=
  match f.ch with
  | .a => { b with rawA := sext32 v, cnt := b.cnt + 1, nextA := f.nextA, last := .a, inH := false }
  | .b => { b with rawB := sext32 v, cnt := b.cnt + 1, nextA := f.nextA, last := .b, inH := false }

/-- What a whole frame on unit u with samples v leaves, in whichever context it ran (rules R70, R73, R79,
R88): everything an acquisition writes, and nothing else of the block. The engine's working
registers are unspecified after it. -/
structure FrameDone (s t : State) (u : UnitId) (v : BitVec 24) (f : Frame) : Prop where
  units : t.units = s.units.put u (acquiredBank (s.units.look u) f v)
  sck : t.sck = s.sck.put u { s.sck.look u with lvl := false }
  dout : t.dout = s.dout.put u (v.getLsbD 0)
  engU : t.engU = none
  slots : t.slots = s.slots
  params : t.params = s.params
  cmd : t.cmd = s.cmd
  ovr : t.ovr = s.ovr
  resp : t.resp = s.resp
  wave : t.ghost.wave = frameWave u v f.k ++ s.ghost.wave
  rising : (frameWave u v f.k).count (.edge u true) = 24 + f.k
  falling : (frameWave u v f.k).count (.edge u false) = 24 + f.k
  elapsed : t.ghost.elapsed = s.ghost.elapsed + (24 + f.k) * (s.params.tH + s.params.tL)
  devsel : t.ghost.devsel =
    s.ghost.devsel.put u (if s.dout.look u then .unknown else
      match f.k with
      | 1 => .aHigh
      | 2 => .b
      | 3 => .aLow
      | _ => .unknown)

/-- The values of rule R122's table that the spec states. -/
structure PowerOnValues (t : State) : Prop where
  ctx : t.irq = none
  im : t.im = false
  fg : t.fg = .idle
  cmd : t.cmd = 0
  status : t.status = 0
  result : t.result = 0
  occ : t.occWord = 0
  slotmap : t.slotmapWord = 0
  units : ∀ u : UnitId, t.units.look u =
    { cfg := false, enB := false, gain := .high, nextA := true, cnt := 0, slotV := false, slot := 0
      inH := false, last := .a, rawA := 0, rawB := 0 }
  sck : ∀ u : UnitId, (t.sck.look u).drv = false
  engU : t.engU = none
  devsel : ∀ u : UnitId, t.ghost.devsel.look u = .unknown
  noDispatch : t.irqReady = none

end Sys2Proof.Claims

open Sys2Proof.Claims

/-! ### Encoding -/

/-- Every command's word decodes to it, with every operand (rules R53 to R55). -/
def Obligations.DecodeOfEncode : Prop :=
  ∀ i : Instr, decode (encode i) = .ok i ∧ decodeTableWord 32 (encode i).toNat = some i

/-- A word decodes to a command only if it is that command's word (rules R53 to R55, R59). -/
def Obligations.EncodeOfDecode : Prop :=
  ∀ (w : Word) (i : Instr), decode w = .ok i → encode i = w

/-- The operands of a decoded word are the fields of rule R54. -/
def Obligations.OperandFieldsR54 : Prop :=
  ∀ (w : Word) (i : Instr), decode w = .ok i →
    i.opcode = w.toNat % 64 ∧
    (∀ u, i.unit? = some u → u.val = w.toNat / 256 % 16) ∧
    (∀ u b, i = .enb u b → b = w.getLsbD 12) ∧
    (∀ u g, i = .gain u g → g = if w.getLsbD 12 then .low else .high) ∧
    (∀ u ch, i = .graw u ch → ch = if w.getLsbD 13 then .b else .a)

/-- Every accepted word falls in exactly one of the three classes of rule R59, checked in its order, and
`NOP` is the only no-operation. -/
def Obligations.WordClassesR59 : Prop :=
  (∀ s : State, s.fg = .start → FgMoves s →
    (0x0E ≤ s.cmd.toNat % 64 → step s = .next (errorEnd s.popEvent 1)) ∧
    (s.cmd.toNat % 64 < 0x0E →
      s.cmd &&& maskOf (s.cmd.toNat % 64) ≠ BitVec.ofNat 32 (s.cmd.toNat % 64) →
      step s = .next (errorEnd s.popEvent 2)) ∧
    (s.cmd.toNat % 64 < 0x0E →
      s.cmd &&& maskOf (s.cmd.toNat % 64) = BitVec.ofNat 32 (s.cmd.toNat % 64) →
      ∃ i, i.opcode = s.cmd.toNat % 64 ∧ encode i = s.cmd ∧ step s = exec i s.popEvent)) ∧
  ∀ w : Word, decode w = .ok .nop → w = 0

/-- Words the spec assembles in its test vectors decode to the commands they stand for, one of each
family at least, and four words are rejected by name. -/
def Obligations.SpecWordsDecode : Prop :=
  decode 0x00000000 = .ok .nop ∧ decode 0x00000101 = .ok (.init 1) ∧
  decode 0x00000302 = .ok (.reset 3) ∧ decode 0x00001003 = .ok (.enb 0 true) ∧
  decode 0x00000204 = .ok (.gain 2 .high) ∧ decode 0x00000005 = .ok (.rdy 0) ∧
  decode 0x00000507 = .ok (.nbread 5) ∧ decode 0x00000208 = .ok (.iatt 2) ∧
  decode 0x00000209 = .ok (.idet 2) ∧ decode 0x0000260B = .ok (.graw 6 .b) ∧
  decode 0x0000000E = .error .opc ∧ decode 0xFFFFFFFF = .error .opc ∧
  decode 0x00002003 = .error .rsvd ∧ decode 0x00004006 = .error .rsvd

/-! ### A step runs the decoded command -/

/-- When the foreground moves and the word in `CMD` decodes to i, the step is one microstep of i. -/
def Obligations.StepRunsDecodedCommand : Prop :=
  ∀ (s : State) (i : Instr), FgMoves s → s.fg ≠ .idle → decode s.cmd = .ok i →
    step s = exec i { s with sched := s.sched.tail }

/-- The loaded word is what the very next step runs, from any state. The model's choices in it: the
interleaving as data (notes/assumptions/5.md). -/
def Obligations.LoadedWordRunsNext : Prop :=
  ∀ (s : State) (i : Instr),
    step (s.withFetchWord 32 (encode i).toNat) =
      exec i { s with
        cmd := encode i, done := false, err := false, ecode := 0, fg := .start
        irq := none, im := false
        slots := #v[{ s.slots.look 0 with pend := false }, { s.slots.look 1 with pend := false },
          { s.slots.look 2 with pend := false }, { s.slots.look 3 with pend := false }] }

/-- The checks of rule R102 in their order, each raising its error as rule R100 says; a command that
passes them all runs its first line in the same microstep and raises nothing; and no dispatch changes
`CFG` or `slotV`, so their outcome does not depend on dispatches. -/
def Obligations.CommandChecksR102 : Prop :=
  (∀ s t : State, step s = .next t → s.nextEvent = .seq → s.irq.isSome = true ∨ t.irq.isSome = true →
    ∀ u : UnitId, (t.units.look u).cfg = (s.units.look u).cfg ∧
      (t.units.look u).slotV = (s.units.look u).slotV) ∧
  ∀ s : State, s.fg = .start → FgMoves s →
    if 0x0E ≤ opcOf s.cmd then step s = .next (errorEnd s.popEvent 1)
    else if s.cmd &&& maskOf (opcOf s.cmd) ≠ BitVec.ofNat 32 (opcOf s.cmd) then
      step s = .next (errorEnd s.popEvent 2)
    else if opcOf s.cmd ≠ 0x00 ∧ s.params.nunits ≤ (unitOf s.cmd).val then
      step s = .next (errorEnd s.popEvent 3)
    else if opcOf s.cmd ∈ [0x02, 0x06, 0x07, 0x08] ∧ (s.units.look (unitOf s.cmd)).cfg = false then
      step s = .next (errorEnd s.popEvent 4)
    else if opcOf s.cmd = 0x07 ∧ (s.units.look (unitOf s.cmd)).slotV = true then
      step s = .next (errorEnd s.popEvent 5)
    else ∃ i t, decode s.cmd = .ok i ∧ exec i s.popEvent = .next t ∧ step s = .next t ∧
      t.err = s.err ∧ t.ecode = s.ecode

/-! ### Commands of one microstep -/

/-- `NOP` completes with result 0 and changes nothing else (rule R80). -/
def Obligations.NopCompletes : Prop :=
  ∀ s : State, s.fg = .start →
    exec .nop s = .next { s with result := 0, done := true, fg := .idle }

/-- `ENB` and `GAIN` write their one flag and complete with 0, on every existing unit; on any other they
raise `E_UNIT` (rules R83, R84). -/
def Obligations.EnbGainWriteTheirFlag : Prop :=
  ∀ (s : State) (u : UnitId) (b : Bool) (g : Gain), s.fg = .start →
    (u.val < s.params.nunits →
      exec (.enb u b) s = .next { s with
        units := s.units.put u { s.units.look u with enB := b }
        result := 0, done := true, fg := .idle } ∧
      exec (.gain u g) s = .next { s with
        units := s.units.put u { s.units.look u with gain := g }
        result := 0, done := true, fg := .idle }) ∧
    (s.params.nunits ≤ u.val →
      exec (.enb u b) s = .next (errorEnd s 3) ∧ exec (.gain u g) s = .next (errorEnd s 3))

/-- `RDY`, `ISIM`, `GRAW` and `GCNT` complete with the value their rules give and change nothing else,
on every existing unit; on any other they raise `E_UNIT` (rules R90, R95, R97, R98). -/
def Obligations.QueriesReturnTheirValue : Prop :=
  ∀ (s : State) (u : UnitId) (ch : Channel), s.fg = .start →
    (u.val < s.params.nunits →
      exec (.rdy u) s = .next { s with
        result := if s.dout.look u = false then 1 else 0, done := true, fg := .idle } ∧
      exec (.isim u) s = .next { s with
        result := if (s.units.look u).slotV = true then 1 else 0, done := true, fg := .idle } ∧
      exec (.graw u ch) s = .next { s with
        result := match ch with
          | .a => (s.units.look u).rawA
          | .b => (s.units.look u).rawB
        done := true, fg := .idle } ∧
      exec (.gcnt u) s = .next { s with result := (s.units.look u).cnt, done := true, fg := .idle }) ∧
    (s.params.nunits ≤ u.val →
      exec (.rdy u) s = .next (errorEnd s 3) ∧ exec (.isim u) s = .next (errorEnd s 3) ∧
      exec (.graw u ch) s = .next (errorEnd s 3) ∧ exec (.gcnt u) s = .next (errorEnd s 3))

/-- `GSTATE u` is 0x0000000D with u in its `UNIT` field; it completes with the word of rule R99, bit by
bit, and changes nothing else; on a unit that does not exist it raises `E_UNIT`. `INH` is 0, and so is
`SCKLVL` of a configured unit, when the command runs; the word of a unit as power-on leaves it has
`NEXTA` as its only stored flag. -/
def Obligations.GstateWordR99 : Prop :=
  ∀ (s : State) (u : UnitId), s.fg = .start →
    encode (.gstate u) = 0x0000000D ||| (BitVec.ofNat 32 u.val <<< 8) ∧
    (u.val < s.params.nunits → ∃ w : Word,
      exec (.gstate u) s = .next { s with result := w, done := true, fg := .idle } ∧
      w.getLsbD 0 = (s.units.look u).cfg ∧ w.getLsbD 1 = (s.units.look u).enB ∧
      w.getLsbD 2 = decide ((s.units.look u).gain = .low) ∧ w.getLsbD 3 = (s.units.look u).nextA ∧
      w.getLsbD 4 = (s.units.look u).slotV ∧ (w.extractLsb' 5 2).toNat = (s.units.look u).slot.val ∧
      w.getLsbD 7 = (s.units.look u).inH ∧ w.getLsbD 8 = decide ((s.units.look u).last = .b) ∧
      w.getLsbD 9 = s.params.irqCapable.getLsbD u.val ∧ w.getLsbD 10 = s.dout.look u ∧
      w.getLsbD 11 = ((s.sck.look u).drv && (s.sck.look u).lvl) ∧ w.getLsbD 12 = (s.sck.look u).drv ∧
      (∀ n, 13 ≤ n → w.getLsbD n = false) ∧
      (s.irq = none → EngineOk s → w.getLsbD 7 = false) ∧
      (s.irq = none → PinsOk s → (s.units.look u).cfg = true → w.getLsbD 11 = false) ∧
      (s.units.look u = UnitBank.powerOn → (s.sck.look u).drv = false →
        w = 0x00000008 ||| (if s.params.irqCapable.getLsbD u.val = true then 0x200 else 0) |||
          (if s.dout.look u = true then 0x400 else 0))) ∧
    (s.params.nunits ≤ u.val → exec (.gstate u) s = .next (errorEnd s 3))

/-! ### Commands of several microsteps, line by line -/

/-- `INIT`'s first microstep drives the clock low and sets `CFG`, configured or not (rule R81). The
waveform records that the pin was driven low, which is no clock edge. The model's choices in it: the
record of waveform, time and selection (notes/assumptions/12.md). -/
def Obligations.InitDrivesClockLow : Prop :=
  ∀ (s : State) (u : UnitId), s.fg = .start →
    (u.val < s.params.nunits →
      exec (.init u) s = .next { s with
        sck := s.sck.put u { drv := true, lvl := false }
        units := s.units.put u { s.units.look u with cfg := true }
        ghost := { s.ghost with wave := .drivenLow u :: s.ghost.wave }
        fg := .resetBody }) ∧
    (s.params.nunits ≤ u.val → exec (.init u) s = .next (errorEnd s 3))

/-- The last microstep of `RESET` and of `INIT` restores the defaults and completes with 0 (rule R82).
The model's choices in it: that the defaults and `complete(0)` are one microstep, read from rules R10 and
R39 (notes/assumptions/4.md). -/
def Obligations.ResetDefaultsLine : Prop :=
  ∀ (s : State) (u : UnitId) (i : Instr), i = .reset u ∨ i = .init u → s.fg = .defaults →
    exec i s = .next { s with
      units := s.units.put u { s.units.look u with
        enB := false, gain := .high, nextA := true, cnt := 0, last := .a, rawA := 0, rawB := 0 }
      result := 0, done := true, fg := .idle }

/-- The lines of `RESET` and `INIT` around the power cycle (rules R81, R82): into the power cycle at
once for a unit that is not attached, through DETACH_BODY for an attached one, and the mask around the
power cycle. The model's choices in it: the microstep grain (notes/assumptions/4.md), the record of
waveform, time and selection (notes/assumptions/12.md). -/
def Obligations.ResetLines : Prop :=
  ∀ (s : State) (u : UnitId) (i : Instr), i = .reset u ∨ i = .init u →
    ((i = .reset u ∧ s.fg = .start ∧ u.val < s.params.nunits ∧ (s.units.look u).cfg = true) ∨
        (i = .init u ∧ s.fg = .resetBody) →
      ((s.units.look u).slotV = false → exec i s = .next { s with fg := .pwrEnter }) ∧
      ((s.units.look u).slotV = true → (s.units.look u).inH = false →
        exec i s = .next { s with fg := .deregEnter }) ∧
      ((s.units.look u).slotV = true → (s.units.look u).inH = true → exec i s = .next { s with
        ghost := { s.ghost with elapsed := s.ghost.elapsed + s.params.tPoll }, fg := .detWait })) ∧
    (s.fg = .pwrEnter → exec i s = .next { s with im := true, fg := .pwr .engOn }) ∧
    (s.fg = .pwrExit → exec i s = .next { s with im := false, fg := .defaults })

/-- The lines of PWRCYCLE in `RESET`, `INIT` and `IATT` (rule R77): the engine on the unit, the clock
high, the hold, the clock low, which returns the device to channel A at HIGH gain, the settling, and the
engine off. The model's choices in it: the record of waveform, time and selection
(notes/assumptions/12.md). -/
def Obligations.PowerCycleLines : Prop :=
  ∀ (s : State) (u : UnitId) (i : Instr), i = .reset u ∨ i = .init u ∨ i = .iatt u →
    (s.fg = .pwr .engOn → exec i s = .next { s with engU := some u, fg := .pwr .high }) ∧
    (s.fg = .pwr .high → exec i s = .next { s with
      sck := s.sck.put u { s.sck.look u with lvl := true }
      ghost := { s.ghost with wave := .edge u true :: s.ghost.wave }, fg := .pwr .hold }) ∧
    (s.fg = .pwr .hold → exec i s = .next { s with
      ghost := { s.ghost with elapsed := s.ghost.elapsed + s.params.tPD }, fg := .pwr .low }) ∧
    (s.fg = .pwr .low → exec i s = .next { s with
      sck := s.sck.put u { s.sck.look u with lvl := false }
      ghost := { s.ghost with
        wave := .edge u false :: s.ghost.wave, devsel := s.ghost.devsel.put u .aHigh }
      fg := .pwr .settle }) ∧
    (s.fg = .pwr .settle → exec i s = .next { s with
      ghost := { s.ghost with elapsed := s.ghost.elapsed + s.params.tPU }, fg := .pwr .engOff }) ∧
    (s.fg = .pwr .engOff → exec i s = .next { s with
      engU := none, fg := if i = .iatt u then .attachNext else .pwrExit })

/-- The lines of DETACH_BODY in `IDET`, `RESET` and `INIT` (rule R94): the wait while an acquisition of
the unit is in progress, the deregistration under the mask, the unmasking, and the clearing of the slot
assignment; `SLOT_UNIT` stays. The model's choices in it: the microstep grain (notes/assumptions/4.md),
the record of waveform, time and selection (notes/assumptions/12.md). -/
def Obligations.DetachLines : Prop :=
  ∀ (s : State) (u : UnitId) (i : Instr), i = .idet u ∨ i = .reset u ∨ i = .init u →
    (s.fg = .detWait → (s.units.look u).inH = false → exec i s = .next { s with fg := .deregEnter }) ∧
    (s.fg = .detWait → (s.units.look u).inH = true → exec i s = .next { s with
      ghost := { s.ghost with elapsed := s.ghost.elapsed + s.params.tPoll } }) ∧
    (s.fg = .deregEnter → exec i s = .next { s with im := true, fg := .deregSlot }) ∧
    (s.fg = .deregSlot → exec i s = .next { s with fg := .deregClear (s.units.look u).slot }) ∧
    (∀ j, s.fg = .deregClear j → exec i s = .next { s with
      slots := s.slots.put j { s.slots.look j with occ := false, pend := false }, fg := .deregExit }) ∧
    (s.fg = .deregExit → exec i s = .next { s with im := false, fg := .clearSlot }) ∧
    (s.fg = .clearSlot →
      (i = .idet u → exec i s = .next { s with
        units := s.units.put u { s.units.look u with slotV := false, slot := 0 }
        result := 1, done := true, fg := .idle }) ∧
      (i ≠ .idet u → exec i s = .next { s with
        units := s.units.put u { s.units.look u with slotV := false, slot := 0 }, fg := .pwrEnter }))

/-- `IDET` on an existing unit that is not attached completes with 1 and changes nothing else; on an
attached one it goes on to deregister, or waits while an acquisition of the unit is in progress (rule
R94). The model's choices in it: the record of waveform, time and selection (notes/assumptions/12.md). -/
def Obligations.IdetStarts : Prop :=
  ∀ (s : State) (u : UnitId), s.fg = .start → u.val < s.params.nunits →
    ((s.units.look u).slotV = false →
      exec (.idet u) s = .next { s with result := 1, done := true, fg := .idle }) ∧
    ((s.units.look u).slotV = true → (s.units.look u).inH = false →
      exec (.idet u) s = .next { s with fg := .deregEnter }) ∧
    ((s.units.look u).slotV = true → (s.units.look u).inH = true → exec (.idet u) s = .next { s with
      ghost := { s.ghost with elapsed := s.ghost.elapsed + s.params.tPoll }, fg := .detWait })

/-- The check and the arming of `IATT` (rule R93): on the three failures nothing is written; otherwise
the lowest free slot is armed for the unit and the engine blanks its edges. The model's choices in it:
the microstep grain (notes/assumptions/4.md). -/
def Obligations.AttachArmsLowestFreeSlot : Prop :=
  ∀ (s : State) (u : UnitId), s.fg = .arm →
    ((s.units.look u).slotV = true ∨ s.params.irqCapable.getLsbD u.val = false ∨
        (∀ i : SlotId, (s.slots.look i).occ = true) →
      exec (.iatt u) s = .next { s with fg := .attachExit true }) ∧
    ∀ i : SlotId, (s.units.look u).slotV = false → s.params.irqCapable.getLsbD u.val = true →
      (s.slots.look i).occ = false → (∀ j : SlotId, j < i → (s.slots.look j).occ = true) →
      exec (.iatt u) s = .next { s with
        slots := s.slots.put i { unit := u, occ := true, pend := false }
        units := s.units.put u { s.units.look u with slotV := true, slot := i }
        engU := some u
        fg := .pwr .engOn }

/-- The lines of `IATT` after its power cycle (rule R93): `nextA <- 1`, the unmasking, and the
completion with 1 on success and 0 on failure. The model's choices in it: the microstep grain
(notes/assumptions/4.md). -/
def Obligations.AttachEnds : Prop :=
  ∀ (s : State) (u : UnitId),
    (s.fg = .attachNext → exec (.iatt u) s = .next { s with
      units := s.units.put u { s.units.look u with nextA := true }, fg := .attachExit false }) ∧
    (∀ f, s.fg = .attachExit f →
      exec (.iatt u) s = .next { s with im := false, fg := .attachDone f }) ∧
    (∀ f, s.fg = .attachDone f → exec (.iatt u) s = .next { s with
      result := if f = true then 0 else 1, done := true, fg := .idle })

/-- `READ` of an attached configured unit completes at once with the channel of its most recent
acquisition and does no I/O; of an unattached one it goes on to poll (rule R91). -/
def Obligations.ReadAttachedReturnsLast : Prop :=
  ∀ (s : State) (u : UnitId), s.fg = .start → u.val < s.params.nunits → (s.units.look u).cfg = true →
    ((s.units.look u).slotV = true → exec (.read u) s = .next { s with
      result := match (s.units.look u).last with
        | .a => 0
        | .b => 1
      done := true, fg := .idle }) ∧
    ((s.units.look u).slotV = false → exec (.read u) s = .next { s with fg := .pollEnter })

/-- The poll of `READ` (rule R91): the mask, the one ready check, then the acquisition or the end of the
masked block, and after it the completion or the wait. The model's choices in it: the microstep grain
(notes/assumptions/4.md), the record of waveform, time and selection (notes/assumptions/12.md). -/
def Obligations.ReadPollLines : Prop :=
  ∀ (s : State) (u : UnitId),
    (s.fg = .pollEnter → exec (.read u) s = .next { s with im := true, fg := .pollCheck }) ∧
    (s.fg = .pollCheck → exec (.read u) s = .next { s with
      fg := if s.dout.look u = false then .acq .enter else .acqExit none }) ∧
    (∀ r, s.fg = .acqExit r → exec (.read u) s = .next { s with im := false, fg := .acqDone r }) ∧
    (s.fg = .acqDone none → exec (.read u) s = .next { s with
      ghost := { s.ghost with elapsed := s.ghost.elapsed + s.params.tPoll }, fg := .pollEnter }) ∧
    (∀ ch, s.fg = .acqDone (some ch) → exec (.read u) s = .next { s with
      result := match ch with
        | .a => 0
        | .b => 1
      done := true, fg := .idle })

/-- The acquisition lines of `READ` and `NBREAD` that write the block's state (rule R88): the in-handler
flag and `ENG_U` around the frame, and the four writes of the commit in one microstep. -/
def Obligations.AcquireWrites : Prop :=
  ∀ (s : State) (u : UnitId) (i : Instr), i = .read u ∨ i = .nbread u →
    (s.fg = .acq .enter → exec i s = .next { s with
      units := s.units.put u { s.units.look u with inH := true }, engU := some u, fg := .acq .select }) ∧
    (∀ f v, s.fg = .acq (.commit f v) → exec i s = .next { s with
      units := s.units.put u (match f.ch with
        | .a => { s.units.look u with
            rawA := sext32 v, cnt := (s.units.look u).cnt + 1, nextA := f.nextA, last := .a }
        | .b => { s.units.look u with
            rawB := sext32 v, cnt := (s.units.look u).cnt + 1, nextA := f.nextA, last := .b })
      fg := .acq (.release f.ch) }) ∧
    (∀ ch, s.fg = .acq (.release ch) → exec i s = .next { s with
      units := s.units.put u { s.units.look u with inH := false }, engU := none
      fg := .acq (.ret ch) })

/-- `NBREAD` of a configured unit that is not attached starts its acquisition under the mask, ready or
not; after it, it unmasks and completes with the serviced channel (rule R92). The model's choices in it:
the microstep grain (notes/assumptions/4.md). -/
def Obligations.NbreadLines : Prop :=
  ∀ (s : State) (u : UnitId),
    (s.fg = .start → u.val < s.params.nunits → (s.units.look u).cfg = true →
      (s.units.look u).slotV = false →
      exec (.nbread u) s = .next { s with im := true, fg := .acq .enter }) ∧
    ∀ ch,
      (s.fg = .acqExit (some ch) →
        exec (.nbread u) s = .next { s with im := false, fg := .acqDone (some ch) }) ∧
      (s.fg = .acqDone (some ch) → exec (.nbread u) s = .next { s with
        result := match ch with
          | .a => 0
          | .b => 1
        done := true, fg := .idle })

/-- The lines of EXCHANGE in `READ` and `NBREAD` (rule R72): 24 data pulses, each sampled while the
clock is high and shifted in most significant bit first, then k extra pulses without a sample, then the
pattern, each line one microstep, the return among them. After the return the working registers hold
some values within their ranges, whatever they are (rule R31). The model's choices in it: the loop tests
made inside the microsteps before them (notes/assumptions/4.md), the free values
(notes/assumptions/6.md), the counts (notes/assumptions/9.md), the record of waveform, time and selection (notes/assumptions/12.md). -/
def Obligations.ExchangeLines : Prop :=
  ∀ (s : State) (u : UnitId) (i : Instr) (f : Frame), i = .read u ∨ i = .nbread u →
    let pos (x : Exch) : FgPos := .acq (.exch f x)
    let rise : State := { s with
      sck := s.sck.put u { s.sck.look u with lvl := true }
      ghost := { s.ghost with wave := .edge u true :: s.ghost.wave } }
    let fall : State := { s with
      sck := s.sck.put u { s.sck.look u with lvl := false }
      ghost := { s.ghost with wave := .edge u false :: s.ghost.wave } }
    let wait (t : Nat) : State := { s with
      ghost := { s.ghost with elapsed := s.ghost.elapsed + t } }
    (s.fg = pos .clear → exec i s = .next { s with
      shift := 0, bitcnt := 0, xcnt := 0
      ghost := { s.ghost with exchReady := !(s.dout.look u) }, fg := pos .dataHigh }) ∧
    (s.fg = pos .dataHigh →
      exec i s = .next { rise with bitcnt := s.bitcnt + 1, fg := pos .dataSettle }) ∧
    (s.fg = pos .dataSettle → exec i s = .next { wait s.params.tH with fg := pos .dataSample }) ∧
    (s.fg = pos .dataSample → exec i s = .next { s with
      ghost := { s.ghost with wave := .sample u (s.dout.look u) :: s.ghost.wave }
      fg := pos (.dataLow (s.dout.look u)) }) ∧
    (∀ b, s.fg = pos (.dataLow b) → exec i s = .next { fall with fg := pos (.dataRest b) }) ∧
    (∀ b, s.fg = pos (.dataRest b) →
      exec i s = .next { wait s.params.tL with fg := pos (.dataShift b) }) ∧
    (∀ b, s.fg = pos (.dataShift b) → exec i s = .next { s with
      shift := s.shift <<< 1 ||| (if b = true then 1 else 0)
      fg := pos (if s.bitcnt < 24 then .dataHigh else .extraHigh) }) ∧
    (s.fg = pos .extraHigh →
      exec i s = .next { rise with xcnt := s.xcnt + 1, fg := pos .extraSettle }) ∧
    (s.fg = pos .extraSettle → exec i s = .next { wait s.params.tH with fg := pos .extraLow }) ∧
    (s.fg = pos .extraLow → exec i s = .next { fall with fg := pos .extraRest }) ∧
    (s.fg = pos .extraRest → exec i s = .next { wait s.params.tL with
      fg := pos (if s.xcnt < f.k then .extraHigh else .ret) }) ∧
    (s.fg = pos .ret → ∃ sh bc xc, bc ≤ 24 ∧ xc ≤ 3 ∧ exec i s = .next { s with
      shift := sh, bitcnt := bc, xcnt := xc
      ghost := { s.ghost with
        devsel := s.ghost.devsel.put u (if s.ghost.exchReady = true then
          match f.k with
          | 1 => .aHigh
          | 2 => .b
          | 3 => .aLow
          | _ => .unknown
          else .unknown)
        draws := s.ghost.draws + 1 }
      fg := .acq (.commit f s.shift) })

/-- At every line of its own pseudocode a command answers a next state, at another line of the same
command or idle (rule R17). The model's choices in it: the microstep grain (notes/assumptions/4.md). -/
def Obligations.EveryLineAnswersNext : Prop :=
  ∀ (i : Instr) (s : State), onProgram i s.fg = true →
    ∃ t, exec i s = .next t ∧ (t.fg = .idle ∨ onProgram i t.fg = true)

/-- SELECT, every row of rule R85's table, in the foreground commands and in a dispatch. -/
def Obligations.SelectTableR85 : Prop :=
  ∀ (s : State) (u : UnitId),
    (s.fg = .acq .select →
      exec (.nbread u) s = .next { s with fg := .acq (.exch (tableFrame (s.units.look u)) .clear) } ∧
      exec (.read u) s = .next { s with fg := .acq (.exch (tableFrame (s.units.look u)) .clear) }) ∧
    ∀ i, s.irq = some ⟨i, u, .acq .select⟩ →
      sequencer s = .next { s with
        irq := some ⟨i, u, .acq (.exch (tableFrame (s.units.look u)) .clear)⟩ }

/-- The sign extension of rule R87, with its corner values. -/
def Obligations.SignExtensionR87 : Prop :=
  (∀ v : BitVec 24, v.getLsbD 23 = true →
    sext32 v = 0xFF000000 ||| v.setWidth 32 ∧ (sext32 v).toInt = (v.toNat : Int) - 2 ^ 24 ∧
    (sext32 v).toInt < 0) ∧
  (∀ v : BitVec 24, v.getLsbD 23 = false →
    sext32 v = v.setWidth 32 ∧ (sext32 v).toInt = (v.toNat : Int) ∧ 0 ≤ (sext32 v).toInt) ∧
  sext32 0x000000 = 0 ∧ sext32 0x7FFFFF = 0x007FFFFF ∧ sext32 0x800000 = 0xFF800000 ∧
  sext32 0xFFFFFF = 0xFFFFFFFF

/-! ### Whole commands -/

/-- `RESET` of a configured unit, with nothing coming from outside, runs to its end in ten microsteps
when the unit is not attached and in fifteen when it is (rule R82). The model's choices in it: the
microstep grain (notes/assumptions/4.md), the record of waveform, time and selection
(notes/assumptions/12.md). -/
def Obligations.ResetRunsToDefaults : Prop :=
  ∀ (s : State) (u : UnitId), Quiet s → Accepted s (.reset u) → u.val < s.params.nunits →
    (s.units.look u).cfg = true → (s.units.look u).inH = false →
    let t (slots : Vector Slot 4) (b : UnitBank) : State := { s with
      slots := slots
      units := s.units.put u { b with
        enB := false, gain := .high, nextA := true, cnt := 0, last := .a, rawA := 0, rawB := 0 }
      sck := s.sck.put u { s.sck.look u with lvl := false }
      engU := none, result := 0, done := true, fg := .idle
      ghost := { s.ghost with
        devsel := s.ghost.devsel.put u .aHigh
        elapsed := s.ghost.elapsed + s.params.tPD + s.params.tPU
        wave := pwrWave u ++ s.ghost.wave } }
    ((s.units.look u).slotV = false → ∃ a, exec (.reset u) s = .next a ∧
      Host.Core.run Sys2Proof.core 9 a = .next (t s.slots (s.units.look u))) ∧
    ((s.units.look u).slotV = true → ∃ a, exec (.reset u) s = .next a ∧
      Host.Core.run Sys2Proof.core 14 a = .next
        (t (s.slots.put (s.units.look u).slot
            { s.slots.look (s.units.look u).slot with occ := false, pend := false })
          { s.units.look u with slotV := false, slot := 0 }))

/-- `INIT` of a unit that is not attached, with nothing coming from outside, configures it and runs to
the defaults in eleven microsteps (rules R81, R82); the first clock edge is the rising one of the power
cycle. The model's choices in it: the microstep grain
(notes/assumptions/4.md), the record of waveform, time and selection (notes/assumptions/12.md). -/
def Obligations.InitRunsToDefaults : Prop :=
  ∀ (s : State) (u : UnitId), Quiet s → Accepted s (.init u) → u.val < s.params.nunits →
    (s.units.look u).slotV = false →
    ∃ a, exec (.init u) s = .next a ∧
      Host.Core.run Sys2Proof.core 10 a = .next { s with
        units := s.units.put u { s.units.look u with
          cfg := true, enB := false, gain := .high, nextA := true, cnt := 0, last := .a
          rawA := 0, rawB := 0 }
        sck := s.sck.put u { drv := true, lvl := false }
        engU := none, result := 0, done := true, fg := .idle
        ghost := { s.ghost with
          devsel := s.ghost.devsel.put u .aHigh
          elapsed := s.ghost.elapsed + s.params.tPD + s.params.tPU
          wave := pwrWave u ++ .drivenLow u :: s.ghost.wave } }

/-- `IDET` of an attached unit, with nothing coming from outside, frees its slot and detaches it in six
microsteps (rule R94). The model's choices in it: the microstep grain (notes/assumptions/4.md). -/
def Obligations.IdetRunsToDetached : Prop :=
  ∀ (s : State) (u : UnitId), Quiet s → Accepted s (.idet u) → u.val < s.params.nunits →
    (s.units.look u).slotV = true → (s.units.look u).inH = false →
    ∃ a, exec (.idet u) s = .next a ∧
      Host.Core.run Sys2Proof.core 5 a = .next { s with
        slots := s.slots.put (s.units.look u).slot
          { s.slots.look (s.units.look u).slot with occ := false, pend := false }
        units := s.units.put u { s.units.look u with slotV := false, slot := 0 }
        result := 1, done := true, fg := .idle }

/-- `IATT` of a configured unit, with nothing coming from outside: on success the lowest free slot, the
power cycle, `nextA` and result 1 in eleven microsteps; on failure result 0 and no other change in four
(rule R93). The model's choices in it: the microstep grain (notes/assumptions/4.md), the record of
waveform, time and selection (notes/assumptions/12.md). -/
def Obligations.IattRunsToResult : Prop :=
  ∀ (s : State) (u : UnitId), Quiet s → Accepted s (.iatt u) → u.val < s.params.nunits →
    (s.units.look u).cfg = true →
    ((s.units.look u).slotV = true ∨ s.params.irqCapable.getLsbD u.val = false ∨
        (∀ i : SlotId, (s.slots.look i).occ = true) →
      ∃ a, exec (.iatt u) s = .next a ∧
        Host.Core.run Sys2Proof.core 3 a = .next { s with result := 0, done := true, fg := .idle }) ∧
    ∀ i : SlotId, (s.units.look u).slotV = false → s.params.irqCapable.getLsbD u.val = true →
      (s.slots.look i).occ = false → (∀ j : SlotId, j < i → (s.slots.look j).occ = true) →
      ∃ a, exec (.iatt u) s = .next a ∧
        Host.Core.run Sys2Proof.core 10 a = .next { s with
          slots := s.slots.put i { unit := u, occ := true, pend := false }
          units := s.units.put u { s.units.look u with slotV := true, slot := i, nextA := true }
          sck := s.sck.put u { s.sck.look u with lvl := false }
          engU := none, result := 1, done := true, fg := .idle
          ghost := { s.ghost with
            devsel := s.ghost.devsel.put u .aHigh
            elapsed := s.ghost.elapsed + s.params.tPD + s.params.tPU
            wave := pwrWave u ++ s.ghost.wave } }

/-- `NBREAD`, ready or not: with the 24 samples forming v, the whole command leaves the reading, the
count, the rotation and the serviced channel, after exactly 24 + k pulses (rules R49, R73, R88, R92).
The model's choices in it: the microstep grain (notes/assumptions/4.md), the free values
(notes/assumptions/6.md), the counts (notes/assumptions/9.md), the record of waveform, time and
selection (notes/assumptions/12.md). -/
def Obligations.NbreadAcquiresFrame : Prop :=
  ∀ (s : State) (u : UnitId) (v : BitVec 24) (rest : List Event),
    Accepted s (.nbread u) → s.irq = none → (∀ i : SlotId, (s.slots.look i).pend = false) →
    u.val < s.params.nunits → (s.units.look u).cfg = true → (s.units.look u).slotV = false →
    s.sched = acquireEvents u v (tableFrame (s.units.look u)).k ++ (seqs 2 ++ rest) →
    ∃ a t, exec (.nbread u) s = .next a ∧
      Host.Core.run Sys2Proof.core (177 + 4 * (tableFrame (s.units.look u)).k) a = .next t ∧
      FrameDone s t u v (tableFrame (s.units.look u)) ∧
      t.result = (match (tableFrame (s.units.look u)).ch with
        | .a => 0
        | .b => 1) ∧
      t.sched = rest ∧ t.fg = .idle ∧ t.irq = none ∧ t.im = false ∧ t.done = true ∧
      t.err = s.err ∧ t.ecode = s.ecode

/-- `READ` of an unattached unit that is ready at its first poll: the same frame, and the serviced
channel as result (rules R88, R91). The model's choices in it: the microstep grain
(notes/assumptions/4.md), the free values (notes/assumptions/6.md), the counts (notes/assumptions/9.md),
the record of waveform, time and selection (notes/assumptions/12.md). -/
def Obligations.ReadAcquiresFrame : Prop :=
  ∀ (s : State) (u : UnitId) (v : BitVec 24) (rest : List Event),
    Accepted s (.read u) → s.irq = none → s.im = false → (∀ i : SlotId, (s.slots.look i).pend = false) →
    u.val < s.params.nunits → (s.units.look u).cfg = true → (s.units.look u).slotV = false →
    s.dout.look u = false →
    s.sched = seqs 2 ++ (acquireEvents u v (tableFrame (s.units.look u)).k ++ (seqs 2 ++ rest)) →
    ∃ a t, exec (.read u) s = .next a ∧
      Host.Core.run Sys2Proof.core (179 + 4 * (tableFrame (s.units.look u)).k) a = .next t ∧
      FrameDone s t u v (tableFrame (s.units.look u)) ∧
      t.result = (match (tableFrame (s.units.look u)).ch with
        | .a => 0
        | .b => 1) ∧
      t.sched = rest ∧ t.fg = .idle ∧ t.irq = none ∧ t.im = false ∧ t.done = true ∧
      t.err = s.err ∧ t.ecode = s.ecode

/-- A dispatch just entered for unit u runs one whole frame and exits, leaving the command in progress
and its status as they were (rules R111, R112). The model's choices in it: the microstep grain
(notes/assumptions/4.md), the free values (notes/assumptions/6.md), the counts (notes/assumptions/9.md),
the record of waveform, time and selection (notes/assumptions/12.md). -/
def Obligations.DispatchAcquiresFrame : Prop :=
  ∀ (s : State) (i : SlotId) (u : UnitId) (v : BitVec 24) (rest : List Event),
    s.irq = some ⟨i, u, .acq .enter⟩ → u.val < s.params.nunits →
    s.sched = acquireEvents u v (tableFrame (s.units.look u)).k ++ (.seq :: rest) →
    ∃ t, Host.Core.run Sys2Proof.core (176 + 4 * (tableFrame (s.units.look u)).k) s = .next t ∧
      FrameDone s t u v (tableFrame (s.units.look u)) ∧
      t.sched = rest ∧ t.irq = none ∧ t.im = false ∧ t.fg = s.fg ∧ t.result = s.result ∧
      t.done = s.done ∧ t.err = s.err ∧ t.ecode = s.ecode

/-- A `READ` whose unit never becomes ready never ends: with nothing coming from outside, after any
number of steps `BUSY` is still 1 and no bank, slot or pin has changed (rules R91, R129). A power-on
reset ends it, and leaves the data lines and the rest of the interleaving as they were. The model's
choices in it: the microstep grain (notes/assumptions/4.md), the interleaving as data
(notes/assumptions/5.md), what a power-on reset during a run keeps (notes/assumptions/13.md). -/
def Obligations.ReadWaitsWhileNotReady : Prop :=
  (∀ (s : State) (rest : List Event), s.sched = .powerOn :: rest →
    ∃ t, step s = .next t ∧ t.busy = false ∧ t.dout = s.dout ∧ t.sched = rest) ∧
  ∀ (s : State) (u : UnitId), Quiet s → s.fg = .pollEnter → s.cmd = encode (.read u) →
    s.dout.look u = true →
    ∀ n, ∃ t, Host.Core.run Sys2Proof.core n s = .next t ∧ t.busy = true ∧ t.cmd = s.cmd ∧
      t.units = s.units ∧ t.slots = s.slots ∧ t.sck = s.sck ∧ t.result = s.result

/-! ### Interrupts -/

/-- The edge latch of rule R108: a falling edge of `DOUT[w]` is latched in every slot armed for w unless
the engine operates w, whatever `IM` and `CTX`; a rising edge or an unchanged level latches nothing; and
`PEND[i]` is cleared only by dispatch entry, deregistration, arming and power-on. -/
def Obligations.EdgeLatchR108 : Prop :=
  (∀ (s : State) (w : UnitId) (lvl : Bool) (rest : List Event),
    s.sched = .dout w lvl :: rest → w.val < s.params.nunits →
    ∃ slots : Vector Slot 4,
      step s = .next { s with sched := rest, dout := s.dout.put w lvl, slots := slots } ∧
      ∀ i : SlotId, slots.look i = { s.slots.look i with
        pend := (s.slots.look i).pend || ((s.dout.look w) && !lvl && (s.slots.look i).occ &&
          decide ((s.slots.look i).unit = w) && decide (s.engU ≠ some w)) }) ∧
  ∀ (s t : State) (i : SlotId), step s = .next t → (s.slots.look i).pend = true →
    (t.slots.look i).pend = false →
    s.nextEvent = .powerOn ∨
    (s.nextEvent = .seq ∧ s.irq = none ∧
      (s.irqReady = some i ∨ s.fg = .deregClear i ∨ (s.fg = .arm ∧ (s.slots.look i).occ = false)))

/-- IRQ entry (rule R110): with `CTX = FG`, `IM = 0`, FG at a preemption point and i the lowest pending
slot, the sequencer's next microstep is the entry for i; and no entry happens otherwise. -/
def Obligations.IrqEntryR110 : Prop :=
  (∀ (s : State) (i : SlotId), s.nextEvent = .seq → s.irq = none → s.im = false →
    s.fg.preemptible = true → (s.slots.look i).pend = true →
    (∀ j : SlotId, j < i → (s.slots.look j).pend = false) →
    step s = .next { s with
      sched := s.sched.tail
      irq := some { slot := i, unit := (s.slots.look i).unit, line := .acq .enter }
      im := true
      slots := s.slots.put i { s.slots.look i with pend := false } }) ∧
  ∀ s t : State, step s = .next t → s.irq = none → t.irq.isSome = true →
    s.nextEvent = .seq ∧ s.im = false ∧ s.fg.preemptible = true ∧
    ∃ i : SlotId, (s.slots.look i).pend = true ∧ (∀ j : SlotId, j < i → (s.slots.look j).pend = false) ∧
      t.irq = some { slot := i, unit := (s.slots.look i).unit, line := .acq .enter }

/-- IRQ exit (rule R112) is one microstep that clears `IM`, returns `CTX` to FG and leaves everything
else, `FGPOS` with its local variables included; a slot still pending is entered by the sequencer's next
microstep; and only the exit, or power-on, ends a dispatch. -/
def Obligations.IrqExitR112 : Prop :=
  (∀ (s : State) (i : SlotId) (u : UnitId), s.nextEvent = .seq → s.irq = some ⟨i, u, .exit⟩ →
    step s = .next { s with sched := s.sched.tail, im := false, irq := none }) ∧
  (∀ (s : State) (i j : SlotId) (u : UnitId), s.sched = [] → s.irq = some ⟨i, u, .exit⟩ →
    s.fg.preemptible = true → (s.slots.look j).pend = true →
    ∃ t t', step s = .next t ∧ step t = .next t' ∧ t'.irq.isSome = true ∧ t'.fg = s.fg) ∧
  ∀ (s t : State) (p : IrqPos), step s = .next t → s.irq = some p → t.irq = none →
    s.nextEvent = .powerOn ∨ (s.nextEvent = .seq ∧ p.line = .exit)

/-- A microstep of a dispatch of unit u touches neither a command in progress nor the registry nor any
other unit (rules R111, R119). -/
def Obligations.DispatchTouchesOnlyItsUnit : Prop :=
  ∀ (s : State) (p : IrqPos), s.nextEvent = .seq → s.irq = some p →
    ∃ t, step s = .next t ∧ t.fg = s.fg ∧ t.cmd = s.cmd ∧ t.result = s.result ∧ t.done = s.done ∧
      t.err = s.err ∧ t.ovr = s.ovr ∧ t.ecode = s.ecode ∧ t.slots = s.slots ∧ t.dout = s.dout ∧
      t.params = s.params ∧ t.resp = s.resp ∧
      (∀ q, t.irq = some q → q.slot = p.slot ∧ q.unit = p.unit) ∧
      ∀ v : UnitId, v ≠ p.unit → t.units.look v = s.units.look v ∧ t.sck.look v = s.sck.look v ∧
        t.ghost.devsel.look v = s.ghost.devsel.look v

/-! ### The host register window -/

/-- `CMD` (rule R19): a write from `IDLE` is accepted and clears `DONE`, `ERR` and `ECODE`; a write
while busy is dropped and sets `OVR`; a read returns it without side effect; it is 0 after power-on. The
block answers each of them without an error. -/
def Obligations.CmdRegisterR19 : Prop :=
  (∀ (s : State) (v : Word) (rest : List Event), s.sched = .hostWrite s.params.base 4 v :: rest →
    (s.fg = .idle → ∃ d, step s = .next { s with
      sched := rest, resp := some { error := false, data := d }
      cmd := v, done := false, err := false, ecode := 0, fg := .start }) ∧
    (s.fg ≠ .idle → ∃ d, step s = .next { s with
      sched := rest, resp := some { error := false, data := d }, ovr := true })) ∧
  (∀ (s : State) (rest : List Event), s.sched = .hostRead s.params.base 4 :: rest →
    step s = .next { s with sched := rest, resp := some { error := false, data := s.cmd } }) ∧
  State.reset.cmd = 0

/-- The accesses the block rejects (rules R36, R37): wholly inside the window, any width but 4, any offset
that is no multiple of 4 and every offset from 0x18 is a bus error with no other change, and a read
returns the data 0; wholly outside the window nothing reaches the block. -/
def Obligations.BusErrorsR36R37 : Prop :=
  ∀ (s : State) (addr n : Nat) (v : Word) (rest : List Event) (e : Event),
    e = .hostRead addr n ∨ e = .hostWrite addr n v → s.sched = e :: rest →
    (s.params.base ≤ addr → addr < s.params.base + 64 → addr + n ≤ s.params.base + 64 →
      (n ≠ 4 ∨ (addr - s.params.base) % 4 ≠ 0 ∨ 0x18 ≤ addr - s.params.base) →
      ∃ d, step s = .next { s with sched := rest, resp := some { error := true, data := d } } ∧
        (e = .hostRead addr n → d = 0)) ∧
    ((addr < s.params.base ∧ addr + n ≤ s.params.base) ∨ s.params.base + 64 ≤ addr →
      step s = .next { s with sched := rest })

/-- Reads of the five registers other than `CMD` have no side effect, a write to `STATUS` clears `OVR`
exactly when its bit 3 is 1, and writes to the read-only registers are ignored without an error (rules
R18, R20, R38). An access that starts below the window and reaches into it does not reach the block, and
one that starts inside and runs past its end is a bus error. The model's choices in it: the recorded
answer and what becomes of these two accesses (notes/assumptions/10.md). -/
def Obligations.RegisterAccesses : Prop :=
  ∀ (s : State) (rest : List Event) (v : Word),
    (∀ off ∈ [0x04, 0x08, 0x0C, 0x10, 0x14], s.sched = .hostRead (s.params.base + off) 4 :: rest →
      step s = .next { s with
        sched := rest
        resp := some { error := false, data :=
          if off = 0x04 then s.status else if off = 0x08 then s.result
          else if off = 0x0C then s.occWord else if off = 0x10 then s.slotmapWord
          else s.capWord } }) ∧
    (s.sched = .hostWrite (s.params.base + 0x04) 4 v :: rest → ∃ d, step s = .next { s with
      sched := rest, resp := some { error := false, data := d }
      ovr := if v.getLsbD 3 = true then false else s.ovr }) ∧
    (∀ off ∈ [0x08, 0x0C, 0x10, 0x14], s.sched = .hostWrite (s.params.base + off) 4 v :: rest →
      ∃ d, step s = .next { s with sched := rest, resp := some { error := false, data := d } }) ∧
    ∀ (addr n : Nat) (e : Event), e = .hostRead addr n ∨ e = .hostWrite addr n v →
      s.sched = e :: rest →
      (addr < s.params.base → s.params.base < addr + n → step s = .next { s with sched := rest }) ∧
      (s.params.base ≤ addr → addr < s.params.base + 64 → s.params.base + 64 < addr + n →
        ∃ d, step s = .next { s with sched := rest, resp := some { error := true, data := d } } ∧
          (e = .hostRead addr n → d = 0))

/-- The fields of `STATUS` (rule R20). -/
def Obligations.StatusFields : Prop :=
  ∀ s : State,
    s.status.getLsbD 0 = decide (s.fg ≠ .idle) ∧ s.status.getLsbD 1 = s.done ∧
    s.status.getLsbD 2 = s.err ∧ s.status.getLsbD 3 = s.ovr ∧ s.status.getLsbD 4 = s.im ∧
    s.status.getLsbD 5 = s.irq.isSome ∧ s.status.getLsbD 6 = false ∧ s.status.getLsbD 7 = false ∧
    s.status.extractLsb' 8 4 = s.ecode ∧ ∀ n, 12 ≤ n → s.status.getLsbD n = false

/-- Registers `OCC`, `SLOTMAP` and `CAP`, bit by bit, with their power-on values, and `CAP` constant
(rules R22, R23, R24). -/
def Obligations.RegistryRegistersR22R23R24 : Prop :=
  (∀ s : State,
    (∀ i : SlotId, s.occWord.getLsbD i.val = (s.slots.look i).occ ∧
      s.occWord.getLsbD (4 + i.val) = (s.slots.look i).pend ∧
      (s.slotmapWord.extractLsb' (4 * i.val) 4).toNat = (s.slots.look i).unit.val) ∧
    (∀ n, 8 ≤ n → s.occWord.getLsbD n = false) ∧
    (∀ n, 16 ≤ n → s.slotmapWord.getLsbD n = false) ∧
    (s.params.wf → (s.capWord.extractLsb' 0 5).toNat = s.params.nunits ∧
      (s.capWord.extractLsb' 8 3).toNat = 4 ∧
      (∀ u : UnitId, s.capWord.getLsbD (16 + u.val) =
        (decide (u.val < s.params.nunits) && s.params.irqCapable.getLsbD u.val)) ∧
      ∀ n, (5 ≤ n ∧ n < 8) ∨ (11 ≤ n ∧ n < 16) → s.capWord.getLsbD n = false)) ∧
  State.reset.occWord = 0 ∧ State.reset.slotmapWord = 0 ∧
  ∀ s t : State, step s = .next t → t.capWord = s.capWord

/-- `RESULT` is written only at the successful end of a foreground command, in the microstep that clears
`BUSY` and sets `DONE`; an error, a dispatch, a host access and an environment step leave it (rule R21). -/
def Obligations.ResultWrittenOnlyAtCompletion : Prop :=
  ∀ s t : State, step s = .next t → t.result ≠ s.result →
    s.nextEvent = .powerOn ∨
    (s.nextEvent = .seq ∧ s.irq = none ∧ s.fg ≠ .idle ∧ t.fg = .idle ∧ t.done = true ∧
      t.err = s.err)

/-- `BUSY` is cleared only together with setting `DONE`, by the end of the command (rules R20, R43). -/
def Obligations.BusyEndsWithDone : Prop :=
  ∀ s t : State, step s = .next t → s.fg ≠ .idle → t.fg = .idle →
    s.nextEvent = .powerOn ∨ (s.nextEvent = .seq ∧ s.irq = none ∧ t.done = true)

/-! ### Reset -/

/-- The power-on values of rule R122, of the reset state and of every power-on reset, which keeps the
parameters. -/
def Obligations.PowerOnValuesR122 : Prop :=
  PowerOnValues State.reset ∧
  ∀ (s : State) (rest : List Event), s.sched = .powerOn :: rest →
    ∃ t, step s = .next t ∧ PowerOnValues t ∧ t.capWord = s.capWord

/-! ### Invariants -/

/-- The invariant holds right after reset. -/
def Obligations.ResetMeetsInvariant : Prop := Inv State.reset

/-- Every step from a state that meets the invariant answers a next state that meets it. The model's
choices in it: the counts (notes/assumptions/9.md), the record of waveform, time and selection
(notes/assumptions/12.md). -/
def Obligations.StepKeepsInvariant : Prop :=
  ∀ s : State, Inv s → ∃ t, step s = .next t ∧ Inv t

/-- From a position that is a line of the command in `CMD`, or idle, the machine never stops, and the
next position is again one (rule R17). The model's choices in it: the one fault
(notes/assumptions/11.md). -/
def Obligations.StepKeepsPosition : Prop :=
  ∀ s : State, PositionOk s → ∃ t, step s = .next t ∧ PositionOk t

/-- `IM` is 1 exactly during a dispatch and inside a masked block, after every step (rules R16, R113). -/
def Obligations.StepKeepsMask : Prop :=
  ∀ s t : State, MaskOk s → step s = .next t → MaskOk t

/-- No two acquisitions overlap: while the mask is as it should be, an acquisition or a power cycle in
either context runs with `IM = 1` and no dispatch can be entered, and a dispatch never runs inside a
foreground acquisition (rules R44, R75, R89). -/
def Obligations.AcquisitionsNeverOverlap : Prop :=
  ∀ s : State, MaskOk s →
    (s.irq.isSome = true ∨ (∃ a, s.fg = .acq a) ∨ (∃ q, s.fg = .pwr q) →
      s.im = true ∧ s.irqReady = none) ∧
    (s.irq.isSome = true → (∀ a, s.fg ≠ .acq a) ∧ ∀ q, s.fg ≠ .pwr q)

/-- The registry invariants of rule R29 are kept by every step, with what the lines of a command know of
its unit. -/
def Obligations.StepKeepsRegistryR29 : Prop :=
  ∀ s t : State, PositionOk s → MaskOk s → RegistryR29 s → RegistryLines s → step s = .next t →
    RegistryR29 t ∧ RegistryLines t

/-- At most four units are attached at any time (rule R96). -/
def Obligations.AtMostFourAttached : Prop :=
  ∀ s : State, RegistryR29 s → RegistryLines s →
    ((List.finRange 16).filter fun u : UnitId => (s.units.look u).slotV).length ≤ 4

/-- Every reading lies in the 24-bit range, after reset and after every step, and bits 31:23 of a word
in that range are all equal (rule R27). -/
def Obligations.StepKeepsReadingsR27 : Prop :=
  (∀ w : Word, InRange24 w → ∀ n, 23 ≤ n → n ≤ 31 → w.getLsbD n = w.getLsbD 31) ∧
  RawOk State.reset ∧ ∀ s t : State, RawOk s → step s = .next t → RawOk t

/-- The clock of a configured unit is low outside the high phases of the engine, after every step (rule
R78). -/
def Obligations.StepKeepsClockIdleLow : Prop :=
  ∀ s t : State, PositionOk s → MaskOk s → PinsOk s → step s = .next t → PinsOk t

/-- `STATUS.DONE`, `ERR` and `ECODE` agree after every step, and `ECODE` is 0 to 5 (rules R20, R101). -/
def Obligations.StepKeepsStatus : Prop :=
  ∀ s t : State, StatusOk s → step s = .next t → StatusOk t

/-- The synchronisation property of rule R70 is kept by every step: whenever the device's selection is
known, `nextA` agrees with it outside the windows in which one of the two has just been changed. The
model's choices in it: the record of waveform, time and selection (notes/assumptions/12.md). -/
def Obligations.StepKeepsSynchronisation : Prop :=
  ∀ s t : State, PositionOk s → MaskOk s → RegistryR29 s → RegistryLines s → CountOk s → SyncOk s →
    step s = .next t → SyncOk t

/-- The units do not share their banks, clocks and selections: a step writes only those of the unit the
running context operates (rule R119). -/
def Obligations.OtherUnitsUntouched : Prop :=
  ∀ (s t : State) (v : UnitId), step s = .next t → s.nextEvent ≠ .powerOn →
    (∀ p, s.irq = some p → p.unit ≠ v) → (s.irq = none → unitOf s.cmd ≠ v) →
    t.units.look v = s.units.look v ∧ t.sck.look v = s.sck.look v ∧ t.ghost.devsel.look v = s.ghost.devsel.look v
end

