-- ==== Sys2Proof/Laws/State.lean ====
section
/-! SUPPORT. One lemma per field per update of the state, each true by rfl. -/

namespace Sys2Proof.Machine

variable (s : State)

/-! ### `State.goto` -/

@[simp] theorem State.goto_params (p : FgPos) : (s.goto p).params = s.params := rfl
@[simp] theorem State.goto_im (p : FgPos) : (s.goto p).im = s.im := rfl
@[simp] theorem State.goto_irq (p : FgPos) : (s.goto p).irq = s.irq := rfl
@[simp] theorem State.goto_fg (p : FgPos) : (s.goto p).fg = p := rfl
@[simp] theorem State.goto_cmd (p : FgPos) : (s.goto p).cmd = s.cmd := rfl
@[simp] theorem State.goto_done (p : FgPos) : (s.goto p).done = s.done := rfl
@[simp] theorem State.goto_err (p : FgPos) : (s.goto p).err = s.err := rfl
@[simp] theorem State.goto_ovr (p : FgPos) : (s.goto p).ovr = s.ovr := rfl
@[simp] theorem State.goto_ecode (p : FgPos) : (s.goto p).ecode = s.ecode := rfl
@[simp] theorem State.goto_result (p : FgPos) : (s.goto p).result = s.result := rfl
@[simp] theorem State.goto_slots (p : FgPos) : (s.goto p).slots = s.slots := rfl
@[simp] theorem State.goto_units (p : FgPos) : (s.goto p).units = s.units := rfl
@[simp] theorem State.goto_sck (p : FgPos) : (s.goto p).sck = s.sck := rfl
@[simp] theorem State.goto_dout (p : FgPos) : (s.goto p).dout = s.dout := rfl
@[simp] theorem State.goto_engU (p : FgPos) : (s.goto p).engU = s.engU := rfl
@[simp] theorem State.goto_shift (p : FgPos) : (s.goto p).shift = s.shift := rfl
@[simp] theorem State.goto_bitcnt (p : FgPos) : (s.goto p).bitcnt = s.bitcnt := rfl
@[simp] theorem State.goto_xcnt (p : FgPos) : (s.goto p).xcnt = s.xcnt := rfl
@[simp] theorem State.goto_sched (p : FgPos) : (s.goto p).sched = s.sched := rfl
@[simp] theorem State.goto_resp (p : FgPos) : (s.goto p).resp = s.resp := rfl
@[simp] theorem State.goto_ghost (p : FgPos) : (s.goto p).ghost = s.ghost := rfl

/-! ### `State.mask` -/

@[simp] theorem State.mask_params : (s.mask).params = s.params := rfl
@[simp] theorem State.mask_im : (s.mask).im = true := rfl
@[simp] theorem State.mask_irq : (s.mask).irq = s.irq := rfl
@[simp] theorem State.mask_fg : (s.mask).fg = s.fg := rfl
@[simp] theorem State.mask_cmd : (s.mask).cmd = s.cmd := rfl
@[simp] theorem State.mask_done : (s.mask).done = s.done := rfl
@[simp] theorem State.mask_err : (s.mask).err = s.err := rfl
@[simp] theorem State.mask_ovr : (s.mask).ovr = s.ovr := rfl
@[simp] theorem State.mask_ecode : (s.mask).ecode = s.ecode := rfl
@[simp] theorem State.mask_result : (s.mask).result = s.result := rfl
@[simp] theorem State.mask_slots : (s.mask).slots = s.slots := rfl
@[simp] theorem State.mask_units : (s.mask).units = s.units := rfl
@[simp] theorem State.mask_sck : (s.mask).sck = s.sck := rfl
@[simp] theorem State.mask_dout : (s.mask).dout = s.dout := rfl
@[simp] theorem State.mask_engU : (s.mask).engU = s.engU := rfl
@[simp] theorem State.mask_shift : (s.mask).shift = s.shift := rfl
@[simp] theorem State.mask_bitcnt : (s.mask).bitcnt = s.bitcnt := rfl
@[simp] theorem State.mask_xcnt : (s.mask).xcnt = s.xcnt := rfl
@[simp] theorem State.mask_sched : (s.mask).sched = s.sched := rfl
@[simp] theorem State.mask_resp : (s.mask).resp = s.resp := rfl
@[simp] theorem State.mask_ghost : (s.mask).ghost = s.ghost := rfl

/-! ### `State.unmask` -/

@[simp] theorem State.unmask_params : (s.unmask).params = s.params := rfl
@[simp] theorem State.unmask_im : (s.unmask).im = false := rfl
@[simp] theorem State.unmask_irq : (s.unmask).irq = s.irq := rfl
@[simp] theorem State.unmask_fg : (s.unmask).fg = s.fg := rfl
@[simp] theorem State.unmask_cmd : (s.unmask).cmd = s.cmd := rfl
@[simp] theorem State.unmask_done : (s.unmask).done = s.done := rfl
@[simp] theorem State.unmask_err : (s.unmask).err = s.err := rfl
@[simp] theorem State.unmask_ovr : (s.unmask).ovr = s.ovr := rfl
@[simp] theorem State.unmask_ecode : (s.unmask).ecode = s.ecode := rfl
@[simp] theorem State.unmask_result : (s.unmask).result = s.result := rfl
@[simp] theorem State.unmask_slots : (s.unmask).slots = s.slots := rfl
@[simp] theorem State.unmask_units : (s.unmask).units = s.units := rfl
@[simp] theorem State.unmask_sck : (s.unmask).sck = s.sck := rfl
@[simp] theorem State.unmask_dout : (s.unmask).dout = s.dout := rfl
@[simp] theorem State.unmask_engU : (s.unmask).engU = s.engU := rfl
@[simp] theorem State.unmask_shift : (s.unmask).shift = s.shift := rfl
@[simp] theorem State.unmask_bitcnt : (s.unmask).bitcnt = s.bitcnt := rfl
@[simp] theorem State.unmask_xcnt : (s.unmask).xcnt = s.xcnt := rfl
@[simp] theorem State.unmask_sched : (s.unmask).sched = s.sched := rfl
@[simp] theorem State.unmask_resp : (s.unmask).resp = s.resp := rfl
@[simp] theorem State.unmask_ghost : (s.unmask).ghost = s.ghost := rfl

/-! ### `State.complete` -/

@[simp] theorem State.complete_params (r : Word) : (s.complete r).params = s.params := rfl
@[simp] theorem State.complete_im (r : Word) : (s.complete r).im = s.im := rfl
@[simp] theorem State.complete_irq (r : Word) : (s.complete r).irq = s.irq := rfl
@[simp] theorem State.complete_fg (r : Word) : (s.complete r).fg = .idle := rfl
@[simp] theorem State.complete_cmd (r : Word) : (s.complete r).cmd = s.cmd := rfl
@[simp] theorem State.complete_done (r : Word) : (s.complete r).done = true := rfl
@[simp] theorem State.complete_err (r : Word) : (s.complete r).err = s.err := rfl
@[simp] theorem State.complete_ovr (r : Word) : (s.complete r).ovr = s.ovr := rfl
@[simp] theorem State.complete_ecode (r : Word) : (s.complete r).ecode = s.ecode := rfl
@[simp] theorem State.complete_result (r : Word) : (s.complete r).result = r := rfl
@[simp] theorem State.complete_slots (r : Word) : (s.complete r).slots = s.slots := rfl
@[simp] theorem State.complete_units (r : Word) : (s.complete r).units = s.units := rfl
@[simp] theorem State.complete_sck (r : Word) : (s.complete r).sck = s.sck := rfl
@[simp] theorem State.complete_dout (r : Word) : (s.complete r).dout = s.dout := rfl
@[simp] theorem State.complete_engU (r : Word) : (s.complete r).engU = s.engU := rfl
@[simp] theorem State.complete_shift (r : Word) : (s.complete r).shift = s.shift := rfl
@[simp] theorem State.complete_bitcnt (r : Word) : (s.complete r).bitcnt = s.bitcnt := rfl
@[simp] theorem State.complete_xcnt (r : Word) : (s.complete r).xcnt = s.xcnt := rfl
@[simp] theorem State.complete_sched (r : Word) : (s.complete r).sched = s.sched := rfl
@[simp] theorem State.complete_resp (r : Word) : (s.complete r).resp = s.resp := rfl
@[simp] theorem State.complete_ghost (r : Word) : (s.complete r).ghost = s.ghost := rfl

/-! ### `State.raise` -/

@[simp] theorem State.raise_params (e : CmdError) : (s.raise e).params = s.params := rfl
@[simp] theorem State.raise_im (e : CmdError) : (s.raise e).im = s.im := rfl
@[simp] theorem State.raise_irq (e : CmdError) : (s.raise e).irq = s.irq := rfl
@[simp] theorem State.raise_fg (e : CmdError) : (s.raise e).fg = .idle := rfl
@[simp] theorem State.raise_cmd (e : CmdError) : (s.raise e).cmd = s.cmd := rfl
@[simp] theorem State.raise_done (e : CmdError) : (s.raise e).done = true := rfl
@[simp] theorem State.raise_err (e : CmdError) : (s.raise e).err = true := rfl
@[simp] theorem State.raise_ovr (e : CmdError) : (s.raise e).ovr = s.ovr := rfl
@[simp] theorem State.raise_ecode (e : CmdError) : (s.raise e).ecode = errorCode e := rfl
@[simp] theorem State.raise_result (e : CmdError) : (s.raise e).result = s.result := rfl
@[simp] theorem State.raise_slots (e : CmdError) : (s.raise e).slots = s.slots := rfl
@[simp] theorem State.raise_units (e : CmdError) : (s.raise e).units = s.units := rfl
@[simp] theorem State.raise_sck (e : CmdError) : (s.raise e).sck = s.sck := rfl
@[simp] theorem State.raise_dout (e : CmdError) : (s.raise e).dout = s.dout := rfl
@[simp] theorem State.raise_engU (e : CmdError) : (s.raise e).engU = s.engU := rfl
@[simp] theorem State.raise_shift (e : CmdError) : (s.raise e).shift = s.shift := rfl
@[simp] theorem State.raise_bitcnt (e : CmdError) : (s.raise e).bitcnt = s.bitcnt := rfl
@[simp] theorem State.raise_xcnt (e : CmdError) : (s.raise e).xcnt = s.xcnt := rfl
@[simp] theorem State.raise_sched (e : CmdError) : (s.raise e).sched = s.sched := rfl
@[simp] theorem State.raise_resp (e : CmdError) : (s.raise e).resp = s.resp := rfl
@[simp] theorem State.raise_ghost (e : CmdError) : (s.raise e).ghost = s.ghost := rfl

/-! ### `State.accept` -/

@[simp] theorem State.accept_params (w : Word) : (s.accept w).params = s.params := rfl
@[simp] theorem State.accept_im (w : Word) : (s.accept w).im = s.im := rfl
@[simp] theorem State.accept_irq (w : Word) : (s.accept w).irq = s.irq := rfl
@[simp] theorem State.accept_fg (w : Word) : (s.accept w).fg = .start := rfl
@[simp] theorem State.accept_cmd (w : Word) : (s.accept w).cmd = w := rfl
@[simp] theorem State.accept_done (w : Word) : (s.accept w).done = false := rfl
@[simp] theorem State.accept_err (w : Word) : (s.accept w).err = false := rfl
@[simp] theorem State.accept_ovr (w : Word) : (s.accept w).ovr = s.ovr := rfl
@[simp] theorem State.accept_ecode (w : Word) : (s.accept w).ecode = 0 := rfl
@[simp] theorem State.accept_result (w : Word) : (s.accept w).result = s.result := rfl
@[simp] theorem State.accept_slots (w : Word) : (s.accept w).slots = s.slots := rfl
@[simp] theorem State.accept_units (w : Word) : (s.accept w).units = s.units := rfl
@[simp] theorem State.accept_sck (w : Word) : (s.accept w).sck = s.sck := rfl
@[simp] theorem State.accept_dout (w : Word) : (s.accept w).dout = s.dout := rfl
@[simp] theorem State.accept_engU (w : Word) : (s.accept w).engU = s.engU := rfl
@[simp] theorem State.accept_shift (w : Word) : (s.accept w).shift = s.shift := rfl
@[simp] theorem State.accept_bitcnt (w : Word) : (s.accept w).bitcnt = s.bitcnt := rfl
@[simp] theorem State.accept_xcnt (w : Word) : (s.accept w).xcnt = s.xcnt := rfl
@[simp] theorem State.accept_sched (w : Word) : (s.accept w).sched = s.sched := rfl
@[simp] theorem State.accept_resp (w : Word) : (s.accept w).resp = s.resp := rfl
@[simp] theorem State.accept_ghost (w : Word) : (s.accept w).ghost = s.ghost := rfl

/-! ### `State.modUnit` -/

@[simp] theorem State.modUnit_params (u : UnitId) (f : UnitBank → UnitBank) :
    (s.modUnit u f).params = s.params := rfl
@[simp] theorem State.modUnit_im (u : UnitId) (f : UnitBank → UnitBank) :
    (s.modUnit u f).im = s.im := rfl
@[simp] theorem State.modUnit_irq (u : UnitId) (f : UnitBank → UnitBank) :
    (s.modUnit u f).irq = s.irq := rfl
@[simp] theorem State.modUnit_fg (u : UnitId) (f : UnitBank → UnitBank) :
    (s.modUnit u f).fg = s.fg := rfl
@[simp] theorem State.modUnit_cmd (u : UnitId) (f : UnitBank → UnitBank) :
    (s.modUnit u f).cmd = s.cmd := rfl
@[simp] theorem State.modUnit_done (u : UnitId) (f : UnitBank → UnitBank) :
    (s.modUnit u f).done = s.done := rfl
@[simp] theorem State.modUnit_err (u : UnitId) (f : UnitBank → UnitBank) :
    (s.modUnit u f).err = s.err := rfl
@[simp] theorem State.modUnit_ovr (u : UnitId) (f : UnitBank → UnitBank) :
    (s.modUnit u f).ovr = s.ovr := rfl
@[simp] theorem State.modUnit_ecode (u : UnitId) (f : UnitBank → UnitBank) :
    (s.modUnit u f).ecode = s.ecode := rfl
@[simp] theorem State.modUnit_result (u : UnitId) (f : UnitBank → UnitBank) :
    (s.modUnit u f).result = s.result := rfl
@[simp] theorem State.modUnit_slots (u : UnitId) (f : UnitBank → UnitBank) :
    (s.modUnit u f).slots = s.slots := rfl
@[simp] theorem State.modUnit_units (u : UnitId) (f : UnitBank → UnitBank) :
    (s.modUnit u f).units = s.units.put u (f (s.units.look u)) := rfl
@[simp] theorem State.modUnit_sck (u : UnitId) (f : UnitBank → UnitBank) :
    (s.modUnit u f).sck = s.sck := rfl
@[simp] theorem State.modUnit_dout (u : UnitId) (f : UnitBank → UnitBank) :
    (s.modUnit u f).dout = s.dout := rfl
@[simp] theorem State.modUnit_engU (u : UnitId) (f : UnitBank → UnitBank) :
    (s.modUnit u f).engU = s.engU := rfl
@[simp] theorem State.modUnit_shift (u : UnitId) (f : UnitBank → UnitBank) :
    (s.modUnit u f).shift = s.shift := rfl
@[simp] theorem State.modUnit_bitcnt (u : UnitId) (f : UnitBank → UnitBank) :
    (s.modUnit u f).bitcnt = s.bitcnt := rfl
@[simp] theorem State.modUnit_xcnt (u : UnitId) (f : UnitBank → UnitBank) :
    (s.modUnit u f).xcnt = s.xcnt := rfl
@[simp] theorem State.modUnit_sched (u : UnitId) (f : UnitBank → UnitBank) :
    (s.modUnit u f).sched = s.sched := rfl
@[simp] theorem State.modUnit_resp (u : UnitId) (f : UnitBank → UnitBank) :
    (s.modUnit u f).resp = s.resp := rfl
@[simp] theorem State.modUnit_ghost (u : UnitId) (f : UnitBank → UnitBank) :
    (s.modUnit u f).ghost = s.ghost := rfl

/-! ### `State.modSlot` -/

@[simp] theorem State.modSlot_params (i : SlotId) (f : Slot → Slot) :
    (s.modSlot i f).params = s.params := rfl
@[simp] theorem State.modSlot_im (i : SlotId) (f : Slot → Slot) : (s.modSlot i f).im = s.im := rfl
@[simp] theorem State.modSlot_irq (i : SlotId) (f : Slot → Slot) :
    (s.modSlot i f).irq = s.irq := rfl
@[simp] theorem State.modSlot_fg (i : SlotId) (f : Slot → Slot) : (s.modSlot i f).fg = s.fg := rfl
@[simp] theorem State.modSlot_cmd (i : SlotId) (f : Slot → Slot) :
    (s.modSlot i f).cmd = s.cmd := rfl
@[simp] theorem State.modSlot_done (i : SlotId) (f : Slot → Slot) :
    (s.modSlot i f).done = s.done := rfl
@[simp] theorem State.modSlot_err (i : SlotId) (f : Slot → Slot) :
    (s.modSlot i f).err = s.err := rfl
@[simp] theorem State.modSlot_ovr (i : SlotId) (f : Slot → Slot) :
    (s.modSlot i f).ovr = s.ovr := rfl
@[simp] theorem State.modSlot_ecode (i : SlotId) (f : Slot → Slot) :
    (s.modSlot i f).ecode = s.ecode := rfl
@[simp] theorem State.modSlot_result (i : SlotId) (f : Slot → Slot) :
    (s.modSlot i f).result = s.result := rfl
@[simp] theorem State.modSlot_slots (i : SlotId) (f : Slot → Slot) :
    (s.modSlot i f).slots = s.slots.put i (f (s.slots.look i)) := rfl
@[simp] theorem State.modSlot_units (i : SlotId) (f : Slot → Slot) :
    (s.modSlot i f).units = s.units := rfl
@[simp] theorem State.modSlot_sck (i : SlotId) (f : Slot → Slot) :
    (s.modSlot i f).sck = s.sck := rfl
@[simp] theorem State.modSlot_dout (i : SlotId) (f : Slot → Slot) :
    (s.modSlot i f).dout = s.dout := rfl
@[simp] theorem State.modSlot_engU (i : SlotId) (f : Slot → Slot) :
    (s.modSlot i f).engU = s.engU := rfl
@[simp] theorem State.modSlot_shift (i : SlotId) (f : Slot → Slot) :
    (s.modSlot i f).shift = s.shift := rfl
@[simp] theorem State.modSlot_bitcnt (i : SlotId) (f : Slot → Slot) :
    (s.modSlot i f).bitcnt = s.bitcnt := rfl
@[simp] theorem State.modSlot_xcnt (i : SlotId) (f : Slot → Slot) :
    (s.modSlot i f).xcnt = s.xcnt := rfl
@[simp] theorem State.modSlot_sched (i : SlotId) (f : Slot → Slot) :
    (s.modSlot i f).sched = s.sched := rfl
@[simp] theorem State.modSlot_resp (i : SlotId) (f : Slot → Slot) :
    (s.modSlot i f).resp = s.resp := rfl
@[simp] theorem State.modSlot_ghost (i : SlotId) (f : Slot → Slot) :
    (s.modSlot i f).ghost = s.ghost := rfl

/-! ### `State.pinWrite` -/

@[simp] theorem State.pinWrite_params (u : UnitId) (b : Bool) :
    (s.pinWrite u b).params = s.params := rfl
@[simp] theorem State.pinWrite_im (u : UnitId) (b : Bool) : (s.pinWrite u b).im = s.im := rfl
@[simp] theorem State.pinWrite_irq (u : UnitId) (b : Bool) : (s.pinWrite u b).irq = s.irq := rfl
@[simp] theorem State.pinWrite_fg (u : UnitId) (b : Bool) : (s.pinWrite u b).fg = s.fg := rfl
@[simp] theorem State.pinWrite_cmd (u : UnitId) (b : Bool) : (s.pinWrite u b).cmd = s.cmd := rfl
@[simp] theorem State.pinWrite_done (u : UnitId) (b : Bool) : (s.pinWrite u b).done = s.done := rfl
@[simp] theorem State.pinWrite_err (u : UnitId) (b : Bool) : (s.pinWrite u b).err = s.err := rfl
@[simp] theorem State.pinWrite_ovr (u : UnitId) (b : Bool) : (s.pinWrite u b).ovr = s.ovr := rfl
@[simp] theorem State.pinWrite_ecode (u : UnitId) (b : Bool) :
    (s.pinWrite u b).ecode = s.ecode := rfl
@[simp] theorem State.pinWrite_result (u : UnitId) (b : Bool) :
    (s.pinWrite u b).result = s.result := rfl
@[simp] theorem State.pinWrite_slots (u : UnitId) (b : Bool) :
    (s.pinWrite u b).slots = s.slots := rfl
@[simp] theorem State.pinWrite_units (u : UnitId) (b : Bool) :
    (s.pinWrite u b).units = s.units := rfl
@[simp] theorem State.pinWrite_sck (u : UnitId) (b : Bool) :
    (s.pinWrite u b).sck = s.sck.put u { s.sck.look u with lvl := b } := rfl
@[simp] theorem State.pinWrite_dout (u : UnitId) (b : Bool) : (s.pinWrite u b).dout = s.dout := rfl
@[simp] theorem State.pinWrite_engU (u : UnitId) (b : Bool) : (s.pinWrite u b).engU = s.engU := rfl
@[simp] theorem State.pinWrite_shift (u : UnitId) (b : Bool) :
    (s.pinWrite u b).shift = s.shift := rfl
@[simp] theorem State.pinWrite_bitcnt (u : UnitId) (b : Bool) :
    (s.pinWrite u b).bitcnt = s.bitcnt := rfl
@[simp] theorem State.pinWrite_xcnt (u : UnitId) (b : Bool) : (s.pinWrite u b).xcnt = s.xcnt := rfl
@[simp] theorem State.pinWrite_sched (u : UnitId) (b : Bool) :
    (s.pinWrite u b).sched = s.sched := rfl
@[simp] theorem State.pinWrite_resp (u : UnitId) (b : Bool) : (s.pinWrite u b).resp = s.resp := rfl
@[simp] theorem State.pinWrite_ghost (u : UnitId) (b : Bool) :
    (s.pinWrite u b).ghost = { s.ghost with wave := .edge u b :: s.ghost.wave } := rfl

/-! ### `State.driveLow` -/

@[simp] theorem State.driveLow_params (u : UnitId) : (s.driveLow u).params = s.params := rfl
@[simp] theorem State.driveLow_im (u : UnitId) : (s.driveLow u).im = s.im := rfl
@[simp] theorem State.driveLow_irq (u : UnitId) : (s.driveLow u).irq = s.irq := rfl
@[simp] theorem State.driveLow_fg (u : UnitId) : (s.driveLow u).fg = s.fg := rfl
@[simp] theorem State.driveLow_cmd (u : UnitId) : (s.driveLow u).cmd = s.cmd := rfl
@[simp] theorem State.driveLow_done (u : UnitId) : (s.driveLow u).done = s.done := rfl
@[simp] theorem State.driveLow_err (u : UnitId) : (s.driveLow u).err = s.err := rfl
@[simp] theorem State.driveLow_ovr (u : UnitId) : (s.driveLow u).ovr = s.ovr := rfl
@[simp] theorem State.driveLow_ecode (u : UnitId) : (s.driveLow u).ecode = s.ecode := rfl
@[simp] theorem State.driveLow_result (u : UnitId) : (s.driveLow u).result = s.result := rfl
@[simp] theorem State.driveLow_slots (u : UnitId) : (s.driveLow u).slots = s.slots := rfl
@[simp] theorem State.driveLow_units (u : UnitId) : (s.driveLow u).units = s.units := rfl
@[simp] theorem State.driveLow_sck (u : UnitId) :
    (s.driveLow u).sck = s.sck.put u { drv := true, lvl := false } := rfl
@[simp] theorem State.driveLow_dout (u : UnitId) : (s.driveLow u).dout = s.dout := rfl
@[simp] theorem State.driveLow_engU (u : UnitId) : (s.driveLow u).engU = s.engU := rfl
@[simp] theorem State.driveLow_shift (u : UnitId) : (s.driveLow u).shift = s.shift := rfl
@[simp] theorem State.driveLow_bitcnt (u : UnitId) : (s.driveLow u).bitcnt = s.bitcnt := rfl
@[simp] theorem State.driveLow_xcnt (u : UnitId) : (s.driveLow u).xcnt = s.xcnt := rfl
@[simp] theorem State.driveLow_sched (u : UnitId) : (s.driveLow u).sched = s.sched := rfl
@[simp] theorem State.driveLow_resp (u : UnitId) : (s.driveLow u).resp = s.resp := rfl
@[simp] theorem State.driveLow_ghost (u : UnitId) :
    (s.driveLow u).ghost = { s.ghost with wave := .drivenLow u :: s.ghost.wave } := rfl

/-! ### `State.wait` -/

@[simp] theorem State.wait_params (t : Nat) : (s.wait t).params = s.params := rfl
@[simp] theorem State.wait_im (t : Nat) : (s.wait t).im = s.im := rfl
@[simp] theorem State.wait_irq (t : Nat) : (s.wait t).irq = s.irq := rfl
@[simp] theorem State.wait_fg (t : Nat) : (s.wait t).fg = s.fg := rfl
@[simp] theorem State.wait_cmd (t : Nat) : (s.wait t).cmd = s.cmd := rfl
@[simp] theorem State.wait_done (t : Nat) : (s.wait t).done = s.done := rfl
@[simp] theorem State.wait_err (t : Nat) : (s.wait t).err = s.err := rfl
@[simp] theorem State.wait_ovr (t : Nat) : (s.wait t).ovr = s.ovr := rfl
@[simp] theorem State.wait_ecode (t : Nat) : (s.wait t).ecode = s.ecode := rfl
@[simp] theorem State.wait_result (t : Nat) : (s.wait t).result = s.result := rfl
@[simp] theorem State.wait_slots (t : Nat) : (s.wait t).slots = s.slots := rfl
@[simp] theorem State.wait_units (t : Nat) : (s.wait t).units = s.units := rfl
@[simp] theorem State.wait_sck (t : Nat) : (s.wait t).sck = s.sck := rfl
@[simp] theorem State.wait_dout (t : Nat) : (s.wait t).dout = s.dout := rfl
@[simp] theorem State.wait_engU (t : Nat) : (s.wait t).engU = s.engU := rfl
@[simp] theorem State.wait_shift (t : Nat) : (s.wait t).shift = s.shift := rfl
@[simp] theorem State.wait_bitcnt (t : Nat) : (s.wait t).bitcnt = s.bitcnt := rfl
@[simp] theorem State.wait_xcnt (t : Nat) : (s.wait t).xcnt = s.xcnt := rfl
@[simp] theorem State.wait_sched (t : Nat) : (s.wait t).sched = s.sched := rfl
@[simp] theorem State.wait_resp (t : Nat) : (s.wait t).resp = s.resp := rfl
@[simp] theorem State.wait_ghost (t : Nat) :
    (s.wait t).ghost = { s.ghost with elapsed := s.ghost.elapsed + t } := rfl

/-! ### `State.deregister` -/

@[simp] theorem State.deregister_params (i : SlotId) : (s.deregister i).params = s.params := rfl
@[simp] theorem State.deregister_im (i : SlotId) : (s.deregister i).im = s.im := rfl
@[simp] theorem State.deregister_irq (i : SlotId) : (s.deregister i).irq = s.irq := rfl
@[simp] theorem State.deregister_fg (i : SlotId) : (s.deregister i).fg = s.fg := rfl
@[simp] theorem State.deregister_cmd (i : SlotId) : (s.deregister i).cmd = s.cmd := rfl
@[simp] theorem State.deregister_done (i : SlotId) : (s.deregister i).done = s.done := rfl
@[simp] theorem State.deregister_err (i : SlotId) : (s.deregister i).err = s.err := rfl
@[simp] theorem State.deregister_ovr (i : SlotId) : (s.deregister i).ovr = s.ovr := rfl
@[simp] theorem State.deregister_ecode (i : SlotId) : (s.deregister i).ecode = s.ecode := rfl
@[simp] theorem State.deregister_result (i : SlotId) : (s.deregister i).result = s.result := rfl
@[simp] theorem State.deregister_slots (i : SlotId) :
    (s.deregister i).slots = s.slots.put i { s.slots.look i with occ := false, pend := false } := rfl
@[simp] theorem State.deregister_units (i : SlotId) : (s.deregister i).units = s.units := rfl
@[simp] theorem State.deregister_sck (i : SlotId) : (s.deregister i).sck = s.sck := rfl
@[simp] theorem State.deregister_dout (i : SlotId) : (s.deregister i).dout = s.dout := rfl
@[simp] theorem State.deregister_engU (i : SlotId) : (s.deregister i).engU = s.engU := rfl
@[simp] theorem State.deregister_shift (i : SlotId) : (s.deregister i).shift = s.shift := rfl
@[simp] theorem State.deregister_bitcnt (i : SlotId) : (s.deregister i).bitcnt = s.bitcnt := rfl
@[simp] theorem State.deregister_xcnt (i : SlotId) : (s.deregister i).xcnt = s.xcnt := rfl
@[simp] theorem State.deregister_sched (i : SlotId) : (s.deregister i).sched = s.sched := rfl
@[simp] theorem State.deregister_resp (i : SlotId) : (s.deregister i).resp = s.resp := rfl
@[simp] theorem State.deregister_ghost (i : SlotId) : (s.deregister i).ghost = s.ghost := rfl

/-! ### `State.clearSlot` -/

@[simp] theorem State.clearSlot_params (u : UnitId) : (s.clearSlot u).params = s.params := rfl
@[simp] theorem State.clearSlot_im (u : UnitId) : (s.clearSlot u).im = s.im := rfl
@[simp] theorem State.clearSlot_irq (u : UnitId) : (s.clearSlot u).irq = s.irq := rfl
@[simp] theorem State.clearSlot_fg (u : UnitId) : (s.clearSlot u).fg = s.fg := rfl
@[simp] theorem State.clearSlot_cmd (u : UnitId) : (s.clearSlot u).cmd = s.cmd := rfl
@[simp] theorem State.clearSlot_done (u : UnitId) : (s.clearSlot u).done = s.done := rfl
@[simp] theorem State.clearSlot_err (u : UnitId) : (s.clearSlot u).err = s.err := rfl
@[simp] theorem State.clearSlot_ovr (u : UnitId) : (s.clearSlot u).ovr = s.ovr := rfl
@[simp] theorem State.clearSlot_ecode (u : UnitId) : (s.clearSlot u).ecode = s.ecode := rfl
@[simp] theorem State.clearSlot_result (u : UnitId) : (s.clearSlot u).result = s.result := rfl
@[simp] theorem State.clearSlot_slots (u : UnitId) : (s.clearSlot u).slots = s.slots := rfl
@[simp] theorem State.clearSlot_units (u : UnitId) :
    (s.clearSlot u).units = s.units.put u { s.units.look u with slotV := false, slot := 0 } := rfl
@[simp] theorem State.clearSlot_sck (u : UnitId) : (s.clearSlot u).sck = s.sck := rfl
@[simp] theorem State.clearSlot_dout (u : UnitId) : (s.clearSlot u).dout = s.dout := rfl
@[simp] theorem State.clearSlot_engU (u : UnitId) : (s.clearSlot u).engU = s.engU := rfl
@[simp] theorem State.clearSlot_shift (u : UnitId) : (s.clearSlot u).shift = s.shift := rfl
@[simp] theorem State.clearSlot_bitcnt (u : UnitId) : (s.clearSlot u).bitcnt = s.bitcnt := rfl
@[simp] theorem State.clearSlot_xcnt (u : UnitId) : (s.clearSlot u).xcnt = s.xcnt := rfl
@[simp] theorem State.clearSlot_sched (u : UnitId) : (s.clearSlot u).sched = s.sched := rfl
@[simp] theorem State.clearSlot_resp (u : UnitId) : (s.clearSlot u).resp = s.resp := rfl
@[simp] theorem State.clearSlot_ghost (u : UnitId) : (s.clearSlot u).ghost = s.ghost := rfl

/-! ### `State.arm` -/

@[simp] theorem State.arm_params (u : UnitId) (i : SlotId) : (s.arm u i).params = s.params := rfl
@[simp] theorem State.arm_im (u : UnitId) (i : SlotId) : (s.arm u i).im = s.im := rfl
@[simp] theorem State.arm_irq (u : UnitId) (i : SlotId) : (s.arm u i).irq = s.irq := rfl
@[simp] theorem State.arm_fg (u : UnitId) (i : SlotId) : (s.arm u i).fg = s.fg := rfl
@[simp] theorem State.arm_cmd (u : UnitId) (i : SlotId) : (s.arm u i).cmd = s.cmd := rfl
@[simp] theorem State.arm_done (u : UnitId) (i : SlotId) : (s.arm u i).done = s.done := rfl
@[simp] theorem State.arm_err (u : UnitId) (i : SlotId) : (s.arm u i).err = s.err := rfl
@[simp] theorem State.arm_ovr (u : UnitId) (i : SlotId) : (s.arm u i).ovr = s.ovr := rfl
@[simp] theorem State.arm_ecode (u : UnitId) (i : SlotId) : (s.arm u i).ecode = s.ecode := rfl
@[simp] theorem State.arm_result (u : UnitId) (i : SlotId) : (s.arm u i).result = s.result := rfl
@[simp] theorem State.arm_slots (u : UnitId) (i : SlotId) :
    (s.arm u i).slots = s.slots.put i { unit := u, occ := true, pend := false } := rfl
@[simp] theorem State.arm_units (u : UnitId) (i : SlotId) :
    (s.arm u i).units = s.units.put u { s.units.look u with slotV := true, slot := i } := rfl
@[simp] theorem State.arm_sck (u : UnitId) (i : SlotId) : (s.arm u i).sck = s.sck := rfl
@[simp] theorem State.arm_dout (u : UnitId) (i : SlotId) : (s.arm u i).dout = s.dout := rfl
@[simp] theorem State.arm_engU (u : UnitId) (i : SlotId) : (s.arm u i).engU = some u := rfl
@[simp] theorem State.arm_shift (u : UnitId) (i : SlotId) : (s.arm u i).shift = s.shift := rfl
@[simp] theorem State.arm_bitcnt (u : UnitId) (i : SlotId) : (s.arm u i).bitcnt = s.bitcnt := rfl
@[simp] theorem State.arm_xcnt (u : UnitId) (i : SlotId) : (s.arm u i).xcnt = s.xcnt := rfl
@[simp] theorem State.arm_sched (u : UnitId) (i : SlotId) : (s.arm u i).sched = s.sched := rfl
@[simp] theorem State.arm_resp (u : UnitId) (i : SlotId) : (s.arm u i).resp = s.resp := rfl
@[simp] theorem State.arm_ghost (u : UnitId) (i : SlotId) : (s.arm u i).ghost = s.ghost := rfl

/-! ### `State.irqEnter` -/

@[simp] theorem State.irqEnter_params (i : SlotId) : (s.irqEnter i).params = s.params := rfl
@[simp] theorem State.irqEnter_im (i : SlotId) : (s.irqEnter i).im = true := rfl
@[simp] theorem State.irqEnter_irq (i : SlotId) :
    (s.irqEnter i).irq = some { slot := i, unit := (s.slots.look i).unit, line := .acq .enter } := rfl
@[simp] theorem State.irqEnter_fg (i : SlotId) : (s.irqEnter i).fg = s.fg := rfl
@[simp] theorem State.irqEnter_cmd (i : SlotId) : (s.irqEnter i).cmd = s.cmd := rfl
@[simp] theorem State.irqEnter_done (i : SlotId) : (s.irqEnter i).done = s.done := rfl
@[simp] theorem State.irqEnter_err (i : SlotId) : (s.irqEnter i).err = s.err := rfl
@[simp] theorem State.irqEnter_ovr (i : SlotId) : (s.irqEnter i).ovr = s.ovr := rfl
@[simp] theorem State.irqEnter_ecode (i : SlotId) : (s.irqEnter i).ecode = s.ecode := rfl
@[simp] theorem State.irqEnter_result (i : SlotId) : (s.irqEnter i).result = s.result := rfl
@[simp] theorem State.irqEnter_slots (i : SlotId) :
    (s.irqEnter i).slots = s.slots.put i { s.slots.look i with pend := false } := rfl
@[simp] theorem State.irqEnter_units (i : SlotId) : (s.irqEnter i).units = s.units := rfl
@[simp] theorem State.irqEnter_sck (i : SlotId) : (s.irqEnter i).sck = s.sck := rfl
@[simp] theorem State.irqEnter_dout (i : SlotId) : (s.irqEnter i).dout = s.dout := rfl
@[simp] theorem State.irqEnter_engU (i : SlotId) : (s.irqEnter i).engU = s.engU := rfl
@[simp] theorem State.irqEnter_shift (i : SlotId) : (s.irqEnter i).shift = s.shift := rfl
@[simp] theorem State.irqEnter_bitcnt (i : SlotId) : (s.irqEnter i).bitcnt = s.bitcnt := rfl
@[simp] theorem State.irqEnter_xcnt (i : SlotId) : (s.irqEnter i).xcnt = s.xcnt := rfl
@[simp] theorem State.irqEnter_sched (i : SlotId) : (s.irqEnter i).sched = s.sched := rfl
@[simp] theorem State.irqEnter_resp (i : SlotId) : (s.irqEnter i).resp = s.resp := rfl
@[simp] theorem State.irqEnter_ghost (i : SlotId) : (s.irqEnter i).ghost = s.ghost := rfl

/-! ### `State.irqExit` -/

@[simp] theorem State.irqExit_params : (s.irqExit).params = s.params := rfl
@[simp] theorem State.irqExit_im : (s.irqExit).im = false := rfl
@[simp] theorem State.irqExit_irq : (s.irqExit).irq = none := rfl
@[simp] theorem State.irqExit_fg : (s.irqExit).fg = s.fg := rfl
@[simp] theorem State.irqExit_cmd : (s.irqExit).cmd = s.cmd := rfl
@[simp] theorem State.irqExit_done : (s.irqExit).done = s.done := rfl
@[simp] theorem State.irqExit_err : (s.irqExit).err = s.err := rfl
@[simp] theorem State.irqExit_ovr : (s.irqExit).ovr = s.ovr := rfl
@[simp] theorem State.irqExit_ecode : (s.irqExit).ecode = s.ecode := rfl
@[simp] theorem State.irqExit_result : (s.irqExit).result = s.result := rfl
@[simp] theorem State.irqExit_slots : (s.irqExit).slots = s.slots := rfl
@[simp] theorem State.irqExit_units : (s.irqExit).units = s.units := rfl
@[simp] theorem State.irqExit_sck : (s.irqExit).sck = s.sck := rfl
@[simp] theorem State.irqExit_dout : (s.irqExit).dout = s.dout := rfl
@[simp] theorem State.irqExit_engU : (s.irqExit).engU = s.engU := rfl
@[simp] theorem State.irqExit_shift : (s.irqExit).shift = s.shift := rfl
@[simp] theorem State.irqExit_bitcnt : (s.irqExit).bitcnt = s.bitcnt := rfl
@[simp] theorem State.irqExit_xcnt : (s.irqExit).xcnt = s.xcnt := rfl
@[simp] theorem State.irqExit_sched : (s.irqExit).sched = s.sched := rfl
@[simp] theorem State.irqExit_resp : (s.irqExit).resp = s.resp := rfl
@[simp] theorem State.irqExit_ghost : (s.irqExit).ghost = s.ghost := rfl

/-! ### `State.popEvent` -/

@[simp] theorem State.popEvent_params : (s.popEvent).params = s.params := rfl
@[simp] theorem State.popEvent_im : (s.popEvent).im = s.im := rfl
@[simp] theorem State.popEvent_irq : (s.popEvent).irq = s.irq := rfl
@[simp] theorem State.popEvent_fg : (s.popEvent).fg = s.fg := rfl
@[simp] theorem State.popEvent_cmd : (s.popEvent).cmd = s.cmd := rfl
@[simp] theorem State.popEvent_done : (s.popEvent).done = s.done := rfl
@[simp] theorem State.popEvent_err : (s.popEvent).err = s.err := rfl
@[simp] theorem State.popEvent_ovr : (s.popEvent).ovr = s.ovr := rfl
@[simp] theorem State.popEvent_ecode : (s.popEvent).ecode = s.ecode := rfl
@[simp] theorem State.popEvent_result : (s.popEvent).result = s.result := rfl
@[simp] theorem State.popEvent_slots : (s.popEvent).slots = s.slots := rfl
@[simp] theorem State.popEvent_units : (s.popEvent).units = s.units := rfl
@[simp] theorem State.popEvent_sck : (s.popEvent).sck = s.sck := rfl
@[simp] theorem State.popEvent_dout : (s.popEvent).dout = s.dout := rfl
@[simp] theorem State.popEvent_engU : (s.popEvent).engU = s.engU := rfl
@[simp] theorem State.popEvent_shift : (s.popEvent).shift = s.shift := rfl
@[simp] theorem State.popEvent_bitcnt : (s.popEvent).bitcnt = s.bitcnt := rfl
@[simp] theorem State.popEvent_xcnt : (s.popEvent).xcnt = s.xcnt := rfl
@[simp] theorem State.popEvent_sched : (s.popEvent).sched = s.sched.tail := rfl
@[simp] theorem State.popEvent_resp : (s.popEvent).resp = s.resp := rfl
@[simp] theorem State.popEvent_ghost : (s.popEvent).ghost = s.ghost := rfl

end Sys2Proof.Machine
end

