-- ==== Sys2Proof/Laws/Ops.lean ====
section
/-! SUPPORT. What each shared operation does, said once: banks, slots, the search for a slot, the edge latch and the eligible dispatch. -/

namespace Sys2Proof.Machine

/-- The entry written is read back, every other entry is as before. -/
@[simp] theorem look_put {α : Type} {n : Nat} (v : Vector α n) (i j : Fin n) (x : α) :
    (v.put i x).look j = if j = i then x else v.look j := by
  simp only [Vector.look, Vector.put, Vector.get_eq_getElem, Vector.getElem_set, Fin.ext_iff,
    eq_comm]

@[simp] theorem look_replicate {α : Type} {n : Nat} (x : α) (i : Fin n) :
    (Vector.replicate n x).look i = x := by
  simp [Vector.look, Vector.get_eq_getElem]

@[simp] theorem look_ofFn {α : Type} {n : Nat} (f : Fin n → α) (i : Fin n) :
    (Vector.ofFn f).look i = f i := by
  simp [Vector.look, Vector.get_eq_getElem]

/-- Two tables with the same entries are equal. -/
theorem table_ext {α : Type} {n : Nat} (v w : Vector α n) (h : ∀ i : Fin n, v.look i = w.look i) :
    v = w :=
  Vector.ext fun i hi => h ⟨i, hi⟩

@[simp] theorem put_put {α : Type} {n : Nat} (v : Vector α n) (i : Fin n) (x y : α) :
    (v.put i x).put i y = v.put i y := by
  apply table_ext
  intro j
  simp only [look_put]
  split <;> rfl

/-- Writing back what an entry holds changes nothing. -/
theorem put_look {α : Type} {n : Nat} (v : Vector α n) (i : Fin n) (x : α) (h : v.look i = x) :
    v.put i x = v := by
  apply table_ext
  intro j
  simp only [look_put]
  split <;> simp_all

theorem modUnit_get (s : State) (u v : UnitId) (f : UnitBank → UnitBank) :
    (s.modUnit u f).units.look v = if v = u then f (s.units.look u) else s.units.look v :=
  look_put _ _ _ _

@[simp] theorem mapSlots_get (f : Slot → Slot) (v : Vector Slot 4) (i : SlotId) :
    (mapSlots f v).look i = f (v.look i) := by
  fin_cases i <;> rfl

/-- The search finds the lowest slot that satisfies p. -/
theorem lowestSlot_eq_some (p : Slot → Bool) (v : Vector Slot 4) (i : SlotId) :
    lowestSlot p v = some i ↔ p (v.look i) = true ∧ ∀ j : SlotId, j < i → p (v.look j) = false := by
  unfold lowestSlot slotOrder
  simp only [List.find?]
  cases h0 : p (v.look (0 : SlotId)) <;> cases h1 : p (v.look (1 : SlotId)) <;>
    cases h2 : p (v.look (2 : SlotId)) <;> cases h3 : p (v.look (3 : SlotId)) <;>
    fin_cases i <;> simp_all [Fin.forall_fin_succ]

/-- The search fails exactly when no slot satisfies p. -/
theorem lowestSlot_eq_none (p : Slot → Bool) (v : Vector Slot 4) :
    lowestSlot p v = none ↔ ∀ j : SlotId, p (v.look j) = false := by
  unfold lowestSlot slotOrder
  simp [Fin.forall_fin_succ]

/-- When a dispatch is eligible, and for which slot (rule R110). -/
theorem irqReady_eq_some (s : State) (i : SlotId) :
    s.irqReady = some i ↔ s.irq = none ∧ s.im = false ∧ s.fg.preemptible = true ∧
      (s.slots.look i).pend = true ∧ ∀ j : SlotId, j < i → (s.slots.look j).pend = false := by
  unfold State.irqReady
  split <;> simp_all [lowestSlot_eq_some]

/-- With nothing pending no dispatch is eligible. -/
theorem irqReady_none_of_no_pend (s : State) (h : ∀ i : SlotId, (s.slots.look i).pend = false) :
    s.irqReady = none := by
  unfold State.irqReady
  split
  · exact (lowestSlot_eq_none _ _).2 h
  · rfl

/-- While `IM` is 1 no dispatch is eligible (rule R16). -/
theorem irqReady_none_of_im (s : State) (h : s.im = true) : s.irqReady = none := by
  simp [State.irqReady, h]

/-- Away from FG's preemption points no dispatch is eligible (rule R106). -/
theorem irqReady_none_of_not_preemptible (s : State) (h : s.fg.preemptible = false) :
    s.irqReady = none := by
  simp [State.irqReady, h]

@[simp] theorem irqReady_popEvent (s : State) : s.popEvent.irqReady = s.irqReady := rfl

/-- What an edge does to one slot: only `PEND` can change, and only to 1 (rule R108). -/
theorem latch_eq (e : Option UnitId) (w : UnitId) (sl : Slot) :
    Slot.latch e w sl = { sl with
      pend := sl.pend || (sl.occ && decide (sl.unit = w) && decide (e ≠ some w)) } := by
  cases sl with
  | mk unit occ pend =>
    unfold Slot.latch
    split <;> simp_all

/-- An environment step writes only `DOUT[w]` and pending bits. -/
theorem drive_eq (s : State) (w : UnitId) (lvl : Bool) (h : w.val < s.params.nunits) :
    s.drive w lvl = { s with
      dout := s.dout.put w lvl
      slots := if s.dout.look w && !lvl then mapSlots (Slot.latch s.engU w) s.slots else s.slots } := by
  unfold State.drive
  rw [if_neg (by omega)]
  split <;> simp_all [State.latchEdge]

/-- A unit number from `NUNITS` on names no pin. -/
theorem drive_absent (s : State) (w : UnitId) (lvl : Bool) (h : s.params.nunits ≤ w.val) :
    s.drive w lvl = s := by
  simp [State.drive, h]

/-- The two ends of a command's checks (rule R102). -/
theorem checked_cases (c : Option CmdError) (s t : State) :
    (∃ e, c = some e ∧ checked c s t = s.raise e) ∨ (c = none ∧ checked c s t = t) := by
  cases c with
  | none => exact .inr ⟨rfl, rfl⟩
  | some e => exact .inl ⟨e, rfl, rfl⟩

theorem checkUnit_eq_none (s : State) (u : UnitId) :
    checkUnit s u = none ↔ u.val < s.params.nunits := by
  unfold checkUnit; split <;> simp_all

theorem checkCfg_eq_none (s : State) (u : UnitId) :
    checkCfg s u = none ↔ u.val < s.params.nunits ∧ (s.units.look u).cfg = true := by
  unfold checkCfg; split <;> simp_all

theorem checkMode_eq_none (s : State) (u : UnitId) :
    checkMode s u = none ↔
      u.val < s.params.nunits ∧ (s.units.look u).cfg = true ∧ (s.units.look u).slotV = false := by
  unfold checkMode
  split
  · simp_all
  · simp_all
    split <;> simp_all

/-- The slot `IATT` takes (rule R93). -/
theorem attachSlot_eq_some (u : UnitId) (s : State) (i : SlotId) :
    attachSlot u s = some i ↔ (s.units.look u).slotV = false ∧ s.params.capable u = true ∧
      (s.slots.look i).occ = false ∧ ∀ j : SlotId, j < i → (s.slots.look j).occ = true := by
  unfold attachSlot
  cases h1 : (s.units.look u).slotV <;> cases h2 : s.params.capable u <;>
    simp_all [lowestSlot_eq_some]

/-- `IATT` fails exactly on the three failures the rule names (rule R93). -/
theorem attachSlot_eq_none (u : UnitId) (s : State) :
    attachSlot u s = none ↔ (s.units.look u).slotV = true ∨ s.params.capable u = false ∨
      ∀ i : SlotId, (s.slots.look i).occ = true := by
  unfold attachSlot
  cases h1 : (s.units.look u).slotV <;> cases h2 : s.params.capable u <;>
    simp_all [lowestSlot_eq_none]

end Sys2Proof.Machine
end

