-- ==== Sys2Proof/Laws/Bus.lean ====
section
/-! SUPPORT. What a host access and an environment step can change, said once. -/

namespace Sys2Proof.Machine

/-- A host read changes only the recorded answer (rule R38). -/
theorem hostRead_eq (s : State) (addr n : Nat) :
    ∃ r, s.hostRead addr n = { s with resp := r } := by
  unfold State.hostRead
  split
  · split <;> exact ⟨_, rfl⟩
  · exact ⟨s.resp, rfl⟩

/-- A host write changes only the recorded answer, or accepts a command word from `IDLE`, or writes `OVR`
(rules R19, R20, R38). -/
theorem hostWrite_cases (s : State) (addr n : Nat) (v : Word) :
    ∃ r, s.hostWrite addr n v = { s with resp := r } ∨
      (s.fg = .idle ∧ s.hostWrite addr n v = { s.accept v with resp := r }) ∨
      ∃ o, s.hostWrite addr n v = { s with resp := r, ovr := o } := by
  unfold State.hostWrite
  split
  · split
    · unfold State.writeReg
      split
      · unfold State.writeCmd State.busy
        split
        · exact ⟨_, .inr (.inr ⟨true, rfl⟩)⟩
        · refine ⟨some ⟨false, 0⟩, .inr (.inl ⟨?_, rfl⟩)⟩
          simp_all
      · unfold State.writeStatus
        split
        · exact ⟨_, .inr (.inr ⟨false, rfl⟩)⟩
        · exact ⟨_, .inl rfl⟩
      · exact ⟨_, .inl rfl⟩
    · exact ⟨_, .inl rfl⟩
  · exact ⟨s.resp, .inl rfl⟩

/-- An environment step changes only data lines and slots (rules R69, R108). -/
theorem drive_cases (s : State) (w : UnitId) (lvl : Bool) :
    ∃ d sl, s.drive w lvl = { s with dout := d, slots := sl } := by
  by_cases h : w.val < s.params.nunits
  · exact ⟨_, _, drive_eq s w lvl h⟩
  · exact ⟨s.dout, s.slots, drive_absent s w lvl (by omega)⟩

end Sys2Proof.Machine
end

