-- ==== Sys2Proof/Laws/Step.lean ====
section
/-! SUPPORT. What a step does, said once: the event taken, the sequencer's choice, and the foreground's command. -/

namespace Sys2Proof.Machine

/-- A foreground microstep with a command in `CMD` is a microstep of that command. -/
theorem foreground_ok (s : State) (i : Instr) (hf : s.fg ≠ .idle) (hd : decode s.cmd = .ok i) :
    foreground s = exec i s := by
  unfold foreground
  rw [hd]
  split
  · contradiction
  · rfl

/-- At `IDLE` the foreground does nothing (rule R121). -/
theorem foreground_idle (s : State) (hf : s.fg = .idle) : foreground s = .next s := by
  unfold foreground
  rw [hf]

/-- A word that is no command raises its error at the command's first microstep (rule R102). -/
theorem foreground_error (s : State) (e : CmdError) (hf : s.fg = .start)
    (hd : decode s.cmd = .error e) : foreground s = .next (s.raise e) := by
  unfold foreground
  rw [hd, hf]
  simp

/-- The one stop of the machine: a position past the first line with no command in `CMD`. -/
theorem foreground_stuck (s : State) (e : CmdError) (hf : s.fg ≠ .idle) (hs : s.fg ≠ .start)
    (hd : decode s.cmd = .error e) : foreground s = .fault .offProgram := by
  unfold foreground
  simp only [hd, hs, if_false]

/-- What one sequencer microstep can be (rules R105, R110). -/
theorem sequencer_cases (s : State) :
    (∃ p, s.irq = some p ∧ sequencer s = .next (irqStep p s)) ∨
    (s.irq = none ∧ ∃ i, s.irqReady = some i ∧ sequencer s = .next (s.irqEnter i)) ∨
    (s.irq = none ∧ s.irqReady = none ∧ sequencer s = foreground s) := by
  unfold sequencer
  cases h : s.irq with
  | some p => exact .inl ⟨p, rfl, rfl⟩
  | none =>
    cases h' : s.irqReady with
    | some i => exact .inr (.inl ⟨rfl, i, rfl, rfl⟩)
    | none => exact .inr (.inr ⟨rfl, rfl, rfl⟩)

/-- What one foreground microstep that goes on can be. -/
theorem foreground_next (s t : State) (h : foreground s = .next t) :
    (s.fg = .idle ∧ t = s) ∨
    (s.fg ≠ .idle ∧ ∃ i, decode s.cmd = .ok i ∧ exec i s = .next t) ∨
    (s.fg = .start ∧ ∃ e, decode s.cmd = .error e ∧ t = s.raise e) := by
  by_cases hf : s.fg = .idle
  · rw [foreground_idle s hf] at h
    cases h
    exact .inl ⟨hf, rfl⟩
  · cases hd : decode s.cmd with
    | ok i =>
      rw [foreground_ok s i hf hd] at h
      exact .inr (.inl ⟨hf, i, rfl, h⟩)
    | error e =>
      by_cases hs : s.fg = .start
      · rw [foreground_error s e hs hd] at h
        cases h
        exact .inr (.inr ⟨hs, e, rfl, rfl⟩)
      · rw [foreground_stuck s e hf hs hd] at h
        cases h

/-- What one step that goes on can be (rule R43): one lemma for every proof about `step`. -/
theorem step_next (s t : State) (h : step s = .next t) :
    (∃ addr n, s.nextEvent = .hostRead addr n ∧ t = s.popEvent.hostRead addr n) ∨
    (∃ addr n v, s.nextEvent = .hostWrite addr n v ∧ t = s.popEvent.hostWrite addr n v) ∨
    (∃ u lvl, s.nextEvent = .dout u lvl ∧ t = s.popEvent.drive u lvl) ∨
    (s.nextEvent = .powerOn ∧ t = s.popEvent.powerOnReset) ∨
    (s.nextEvent = .seq ∧ ∃ p, s.irq = some p ∧ t = irqStep p s.popEvent) ∨
    (s.nextEvent = .seq ∧ s.irq = none ∧ ∃ i, s.irqReady = some i ∧ t = s.popEvent.irqEnter i) ∨
    (s.nextEvent = .seq ∧ s.irq = none ∧ s.irqReady = none ∧
      foreground s.popEvent = .next t) := by
  unfold step at h
  cases he : s.nextEvent with
  | hostRead addr n => rw [he] at h; cases h; exact .inl ⟨addr, n, rfl, rfl⟩
  | hostWrite addr n v => rw [he] at h; cases h; exact .inr (.inl ⟨addr, n, v, rfl, rfl⟩)
  | dout u lvl => rw [he] at h; cases h; exact .inr (.inr (.inl ⟨u, lvl, rfl, rfl⟩))
  | powerOn => rw [he] at h; cases h; exact .inr (.inr (.inr (.inl ⟨rfl, rfl⟩)))
  | seq =>
    rw [he] at h
    rcases sequencer_cases s.popEvent with ⟨p, hp, e⟩ | ⟨hn, i, hi, e⟩ | ⟨hn, hr, e⟩
    · rw [perform, e] at h
      cases h
      exact .inr (.inr (.inr (.inr (.inl ⟨rfl, p, hp, rfl⟩))))
    · rw [perform, e] at h
      cases h
      exact .inr (.inr (.inr (.inr (.inr (.inl ⟨rfl, hn, i, hi, rfl⟩)))))
    · rw [perform, e] at h
      exact .inr (.inr (.inr (.inr (.inr (.inr ⟨rfl, hn, hr, h⟩)))))

/-- When the foreground has the next move, the step is its microstep. -/
theorem step_foreground (s : State) (he : s.nextEvent = .seq) (hn : s.irq = none)
    (hr : s.irqReady = none) : step s = foreground s.popEvent := by
  unfold step
  rw [he]
  rcases sequencer_cases s.popEvent with ⟨p, hp, -⟩ | ⟨-, i, hi, -⟩ | ⟨-, -, e⟩
  · rw [State.popEvent_irq, hn] at hp; cases hp
  · rw [irqReady_popEvent, hr] at hi; cases hi
  · exact e

/-- During a dispatch the sequencer's microstep is the dispatch's (rule R105). -/
theorem step_irq (s : State) (p : IrqPos) (he : s.nextEvent = .seq) (hp : s.irq = some p) :
    step s = .next (irqStep p s.popEvent) := by
  unfold step
  rw [he]
  rcases sequencer_cases s.popEvent with ⟨q, hq, e⟩ | ⟨hn, -⟩ | ⟨hn, -⟩
  · rw [State.popEvent_irq, hp] at hq; cases hq; exact e
  · rw [State.popEvent_irq, hp] at hn; cases hn
  · rw [State.popEvent_irq, hp] at hn; cases hn

/-- An eligible dispatch is entered (rule R110). -/
theorem step_irqEnter (s : State) (i : SlotId) (he : s.nextEvent = .seq) (hr : s.irqReady = some i) :
    step s = .next (s.popEvent.irqEnter i) := by
  have hn := ((irqReady_eq_some s i).1 hr).1
  unfold step
  rw [he]
  rcases sequencer_cases s.popEvent with ⟨q, hq, -⟩ | ⟨-, j, hj, e⟩ | ⟨-, hj, -⟩
  · rw [State.popEvent_irq, hn] at hq; cases hq
  · rw [irqReady_popEvent, hr] at hj; cases hj; exact e
  · rw [irqReady_popEvent, hr] at hj; cases hj

/-- What the end of a run says (rule R136). -/
theorem runEnded_iff (s : State) : s.runEnded = true ↔
    s.fg = .idle ∧ (∀ e ∈ s.sched, e.writesCmd s.params.base = false) ∧ s.irq = none ∧
      (∀ i : SlotId, (s.slots.look i).pend = false) ∧
      ((∃ u : UnitId, (s.units.look u).slotV = true) →
        fallingEdgeLeft s.params.nunits s.dout s.sched = false) := by
  have hp : (slotOrder.all fun i => !(s.slots.look i).pend) = true ↔
      ∀ i : SlotId, (s.slots.look i).pend = false := by
    simp [Fin.forall_fin_succ]
  have ha : (!s.anyAttached || !fallingEdgeLeft s.params.nunits s.dout s.sched) = true ↔
      ((∃ u : UnitId, (s.units.look u).slotV = true) →
        fallingEdgeLeft s.params.nunits s.dout s.sched = false) := by
    cases fallingEdgeLeft s.params.nunits s.dout s.sched <;> simp [State.anyAttached]
  simp only [State.runEnded, Bool.and_eq_true, hp, ha]
  simp [State.busy, and_assoc]

end Sys2Proof.Machine
end

