-- ==== Sys2Proof/Laws/Engine.lean ====
section
/-! SUPPORT. What the engine's microprograms and the commands leave alone, said once. -/

namespace Sys2Proof.Machine

/-- What a microstep of the engine on unit u leaves alone (rules R73, R111): the sequencer, the host
registers, the registry, the environment, and the bank, clock and selection of every other unit. -/
structure EngineFrame (u : UnitId) (s t : State) : Prop where
  params : t.params = s.params
  im : t.im = s.im
  irq : t.irq = s.irq
  fg : t.fg = s.fg
  cmd : t.cmd = s.cmd
  done : t.done = s.done
  err : t.err = s.err
  ovr : t.ovr = s.ovr
  ecode : t.ecode = s.ecode
  result : t.result = s.result
  slots : t.slots = s.slots
  dout : t.dout = s.dout
  sched : t.sched = s.sched
  resp : t.resp = s.resp
  units : ∀ v : UnitId, v ≠ u → t.units.look v = s.units.look v
  sck : ∀ v : UnitId, v ≠ u → t.sck.look v = s.sck.look v
  devsel : ∀ v : UnitId, v ≠ u → t.ghost.devsel.look v = s.ghost.devsel.look v

theorem exchStep_frame (u : UnitId) (k : Nat) (x : Exch) (s : State) :
    EngineFrame u s (exchStep u k x s).2 := by
  cases x <;> constructor <;> first | rfl | (intro v hv; first | rfl | (simp only [exchStep, State.pinWrite]; rw [look_put, if_neg hv]))

/-- EXCHANGE writes no bank (rule R72). -/
theorem exchStep_units (u : UnitId) (k : Nat) (x : Exch) (s : State) :
    (exchStep u k x s).2.units = s.units := by
  cases x <;> rfl

theorem modUnit_frame (u : UnitId) (s : State) (f : UnitBank → UnitBank) (e : Option UnitId) :
    EngineFrame u s { s.modUnit u f with engU := e } := by
  constructor <;> first | rfl | (intro v hv; first | rfl | (simp only [State.modUnit]; rw [look_put, if_neg hv]))

/-- A line of EXCHANGE inside ACQUIRE in terms of EXCHANGE's own. -/
theorem acqStep_exch (u : UnitId) (f : Frame) (x : Exch) (s : State) :
    acqStep u (.exch f x) s = (match (exchStep u f.k x s).1 with
      | .more x' => .more (.exch f x')
      | .done v => .more (.commit f v), (exchStep u f.k x s).2) := by
  dsimp only [acqStep]
  cases h : exchStep u f.k x s with
  | mk n t => cases n <;> rfl

theorem acqStep_frame (u : UnitId) (a : Acq) (s : State) : EngineFrame u s (acqStep u a s).2 := by
  cases a with
  | enter => exact modUnit_frame u s _ _
  | select => constructor <;> intros <;> rfl
  | exch f x =>
    have h := exchStep_frame u f.k x s
    rw [acqStep_exch]
    exact h
  | commit f v => exact modUnit_frame u s (UnitBank.commit · f v) s.engU
  | release ch => exact modUnit_frame u s _ _
  | ret ch => constructor <;> intros <;> rfl

theorem pwrStep_frame (u : UnitId) (p : Pwr) (s : State) : EngineFrame u s (pwrStep u p s).2 := by
  cases p <;> constructor <;> first | rfl | (intro v hv; first | rfl | (simp only [pwrStep, State.pinWrite]; rw [look_put, if_neg hv]))

/-- PWRCYCLE writes no bank (rule R77). -/
theorem pwrStep_units (u : UnitId) (p : Pwr) (s : State) : (pwrStep u p s).2.units = s.units := by
  cases p <;> rfl

/-- A foreground microstep of ACQUIRE in terms of ACQUIRE's own. -/
theorem fgAcquire_eq (u : UnitId) (a : Acq) (s : State) :
    fgAcquire u a s = (acqStep u a s).2.goto (match (acqStep u a s).1 with
      | .more a' => .acq a'
      | .done ch => .acqExit (some ch)) := by
  unfold fgAcquire
  split <;> simp_all

/-- A foreground microstep of PWRCYCLE in terms of PWRCYCLE's own. -/
theorem fgPowerCycle_eq (u : UnitId) (next : FgPos) (p : Pwr) (s : State) :
    fgPowerCycle u next p s = (pwrStep u p s).2.goto (match (pwrStep u p s).1 with
      | some p' => .pwr p'
      | none => next) := by
  unfold fgPowerCycle
  split <;> simp_all

/-- A microstep of a dispatch in terms of ACQUIRE's own, and the exit. -/
theorem irqStep_acq (p : IrqPos) (a : Acq) (s : State) (h : p.line = .acq a) :
    irqStep p s = { (acqStep p.unit a s).2 with irq := some { p with line :=
      match (acqStep p.unit a s).1 with
      | .more a' => .acq a'
      | .done _ => .exit } } := by
  unfold irqStep
  rw [h]
  dsimp only
  split <;> simp_all

theorem irqStep_exit (p : IrqPos) (s : State) (h : p.line = .exit) : irqStep p s = s.irqExit := by
  unfold irqStep
  rw [h]

/-- A microstep of a dispatch of a unit leaves alone what the engine on that unit does, but for the IRQ
position and the mask at its exit (rules R111, R112). -/
theorem irqStep_frame (p : IrqPos) (s : State) :
    EngineFrame p.unit { s with irq := (irqStep p s).irq, im := (irqStep p s).im } (irqStep p s) := by
  cases h : p.line with
  | acq a =>
    rw [irqStep_acq p a s h]
    have f := acqStep_frame p.unit a s
    exact ⟨f.params, rfl, rfl, f.fg, f.cmd, f.done, f.err, f.ovr, f.ecode, f.result, f.slots, f.dout,
      f.sched, f.resp, f.units, f.sck, f.devsel⟩
  | exit =>
    rw [irqStep_exit p s h]
    constructor <;> intros <;> rfl

/-- What every microstep of every command leaves alone: the parameters, the contexts, `CMD`, `OVR`, the
environment and the bus. -/
structure CommandFrame (s t : State) : Prop where
  params : t.params = s.params
  irq : t.irq = s.irq
  cmd : t.cmd = s.cmd
  ovr : t.ovr = s.ovr
  dout : t.dout = s.dout
  sched : t.sched = s.sched
  resp : t.resp = s.resp

/-- The bank, clock and selection of unit v are as before. -/
abbrev SameUnit (v : UnitId) (s t : State) : Prop :=
  t.units.look v = s.units.look v ∧ t.sck.look v = s.sck.look v ∧ t.ghost.devsel.look v = s.ghost.devsel.look v

/-- A state that differs in the foreground position from one the engine left. -/
theorem EngineFrame.command {u : UnitId} {s t : State} (h : EngineFrame u s t) (p : FgPos) :
    CommandFrame s (t.goto p) ∧ ∀ v : UnitId, v ≠ u → SameUnit v s (t.goto p) :=
  ⟨⟨h.params, h.irq, h.cmd, h.ovr, h.dout, h.sched, h.resp⟩,
    fun v hv => ⟨h.units v hv, h.sck v hv, h.devsel v hv⟩⟩

theorem fgAcquire_frame (u : UnitId) (a : Acq) (s : State) :
    CommandFrame s (fgAcquire u a s) ∧ ∀ v : UnitId, v ≠ u → SameUnit v s (fgAcquire u a s) := by
  rw [fgAcquire_eq]
  exact (acqStep_frame u a s).command _

theorem fgPowerCycle_frame (u : UnitId) (next : FgPos) (p : Pwr) (s : State) :
    CommandFrame s (fgPowerCycle u next p s) ∧
      ∀ v : UnitId, v ≠ u → SameUnit v s (fgPowerCycle u next p s) := by
  rw [fgPowerCycle_eq]
  exact (pwrStep_frame u p s).command _

/-- Writing the bank of one unit leaves the others' banks. -/
theorem modUnit_other (s : State) (u v : UnitId) (f : UnitBank → UnitBank) (h : v ≠ u) :
    (s.modUnit u f).units.look v = s.units.look v := by
  simp only [State.modUnit]
  rw [look_put, if_neg h]

/-- Driving one clock leaves the others'. -/
theorem driveLow_other (s : State) (u v : UnitId) (h : v ≠ u) :
    (s.driveLow u).sck.look v = s.sck.look v := by
  simp only [State.driveLow]
  rw [look_put, if_neg h]

/-- The frame of both ends of a command's checks. -/
theorem checked_frame (c : Option CmdError) (s t : State) (P : State → Prop)
    (hraise : ∀ e, P (s.raise e)) (ht : P t) : P (checked c s t) := by
  rcases checked_cases c s t with ⟨e, -, h⟩ | ⟨-, h⟩ <;> rw [h]
  · exact hraise e
  · exact ht

/-- What one microstep on unit u leaves alone, for every command. -/
abbrev UnitCommandFrame (u : UnitId) (s t : State) : Prop :=
  CommandFrame s t ∧ ∀ v : UnitId, v ≠ u → SameUnit v s t

/-- A frame depends only on the fields it speaks of. -/
theorem CommandFrame.same {u : UnitId} {s t r : State}
    (h : CommandFrame s t ∧ ∀ v : UnitId, v ≠ u → SameUnit v s t)
    (h1 : r.params = t.params) (h2 : r.irq = t.irq) (h3 : r.cmd = t.cmd) (h4 : r.ovr = t.ovr)
    (h5 : r.dout = t.dout) (h6 : r.sched = t.sched) (h7 : r.resp = t.resp)
    (h8 : r.units = t.units) (h9 : r.sck = t.sck) (h10 : r.ghost.devsel = t.ghost.devsel) :
    UnitCommandFrame u s r := by
  refine ⟨⟨h1.trans h.1.params, h2.trans h.1.irq, h3.trans h.1.cmd, h4.trans h.1.ovr,
    h5.trans h.1.dout, h6.trans h.1.sched, h7.trans h.1.resp⟩, fun v hv => ?_⟩
  rw [SameUnit, h8, h9, h10]
  exact h.2 v hv

theorem detachWait_frame (u : UnitId) (s : State) : UnitCommandFrame u s (detachWait u s) := by
  unfold detachWait
  split <;> exact ⟨⟨rfl, rfl, rfl, rfl, rfl, rfl, rfl⟩, fun v _ => ⟨rfl, rfl, rfl⟩⟩

theorem detachLine_frame (u : UnitId) (after : State → State) (p : FgPos) (s t : State)
    (ha : ∀ r, UnitCommandFrame u s r → UnitCommandFrame u s (after r))
    (h : detachLine u after p s = some t) : UnitCommandFrame u s t := by
  unfold detachLine at h
  split at h <;> cases h
  · exact detachWait_frame u s
  all_goals first
    | exact ⟨⟨rfl, rfl, rfl, rfl, rfl, rfl, rfl⟩, fun v _ => ⟨rfl, rfl, rfl⟩⟩
    | exact ha _ ⟨⟨rfl, rfl, rfl, rfl, rfl, rfl, rfl⟩, fun v hv => ⟨modUnit_other _ _ _ _ hv, rfl, rfl⟩⟩

theorem resetLine_frame (u : UnitId) (p : FgPos) (s t : State) (h : resetLine u p s = some t) :
    UnitCommandFrame u s t := by
  unfold resetLine at h
  split at h
  · cases h; exact ⟨⟨rfl, rfl, rfl, rfl, rfl, rfl, rfl⟩, fun v _ => ⟨rfl, rfl, rfl⟩⟩
  · cases h; exact fgPowerCycle_frame u _ _ s
  · cases h; exact ⟨⟨rfl, rfl, rfl, rfl, rfl, rfl, rfl⟩, fun v _ => ⟨rfl, rfl, rfl⟩⟩
  · cases h
    exact ⟨⟨rfl, rfl, rfl, rfl, rfl, rfl, rfl⟩, fun v hv => ⟨modUnit_other _ _ _ _ hv, rfl, rfl⟩⟩
  · exact detachLine_frame u (·.goto .pwrEnter) _ s t (fun r hr => CommandFrame.same hr rfl rfl rfl rfl rfl rfl rfl rfl rfl rfl) h

theorem resetStart_frame (u : UnitId) (s : State) : UnitCommandFrame u s (resetStart u s) := by
  unfold resetStart detachStart
  split
  · exact detachWait_frame u s
  · exact ⟨⟨rfl, rfl, rfl, rfl, rfl, rfl, rfl⟩, fun v _ => ⟨rfl, rfl, rfl⟩⟩

theorem ofLine_next (r : Option State) (t : State) : ofLine r = .next t ↔ r = some t := by
  cases r <;> simp [ofLine]

/-- The unit a command works on; `NOP`, which names none, is given the unit 0 it leaves alone. -/
abbrev Instr.workUnit (i : Instr) : UnitId := (i.unit?).getD 0

/-- Every microstep of every command leaves alone what `UnitCommandFrame` says (rules R116, R119). -/
theorem exec_frame (i : Instr) (s t : State) (h : exec i s = .next t) :
    UnitCommandFrame (Instr.workUnit i) s t := by
  have triv (r : State) (h1 : r.params = s.params) (h2 : r.irq = s.irq) (h3 : r.cmd = s.cmd)
      (h4 : r.ovr = s.ovr) (h5 : r.dout = s.dout) (h6 : r.sched = s.sched) (h7 : r.resp = s.resp)
      (h8 : ∀ v : UnitId, v ≠ Instr.workUnit i → r.units.look v = s.units.look v) (h9 : r.sck = s.sck)
      (h10 : r.ghost.devsel = s.ghost.devsel) : UnitCommandFrame (Instr.workUnit i) s r :=
    ⟨⟨h1, h2, h3, h4, h5, h6, h7⟩, fun v hv => ⟨h8 v hv, by rw [h9], by rw [h10]⟩⟩
  have same (r : State) (h1 : r.params = s.params) (h2 : r.irq = s.irq) (h3 : r.cmd = s.cmd)
      (h4 : r.ovr = s.ovr) (h5 : r.dout = s.dout) (h6 : r.sched = s.sched) (h7 : r.resp = s.resp)
      (h8 : r.units = s.units) (h9 : r.sck = s.sck)
      (h10 : r.ghost.devsel = s.ghost.devsel) : UnitCommandFrame (Instr.workUnit i) s r :=
    triv r h1 h2 h3 h4 h5 h6 h7 (fun v _ => by rw [h8]) h9 h10
  have err (e : CmdError) : UnitCommandFrame (Instr.workUnit i) s (s.raise e) :=
    same _ rfl rfl rfl rfl rfl rfl rfl rfl rfl rfl
  have one (c : Option CmdError) (r : State) (hr : UnitCommandFrame (Instr.workUnit i) s r) :
      UnitCommandFrame (Instr.workUnit i) s (checked c s r) := checked_frame c s r _ err hr
  cases i with
  | nop =>
    have h : execNop s = .next t := h
    unfold execNop at h
    split at h <;> cases h
    exact same _ rfl rfl rfl rfl rfl rfl rfl rfl rfl rfl
  | init u =>
    have h : execInit u s = .next t := h
    unfold execInit at h
    split at h
    · cases h
      refine one _ _ ⟨⟨rfl, rfl, rfl, rfl, rfl, rfl, rfl⟩, fun v hv => ⟨?_, ?_, rfl⟩⟩
      · exact modUnit_other (s.driveLow u) u v ({ · with cfg := true }) hv
      · exact driveLow_other _ _ _ hv
    · cases h; exact resetStart_frame u s
    · exact resetLine_frame u _ s t ((ofLine_next _ _).1 h)
  | reset u =>
    have h : execReset u s = .next t := h
    unfold execReset at h
    split at h
    · cases h; exact one _ _ (resetStart_frame u s)
    · exact resetLine_frame u _ s t ((ofLine_next _ _).1 h)
  | enb u b =>
    have h : execEnb u b s = .next t := h
    unfold execEnb at h
    split at h <;> cases h
    exact one _ _ (triv _ rfl rfl rfl rfl rfl rfl rfl (fun v hv => modUnit_other s u v ({ · with enB := b }) hv) rfl rfl)
  | gain u g =>
    have h : execGain u g s = .next t := h
    unfold execGain at h
    split at h <;> cases h
    exact one _ _ (triv _ rfl rfl rfl rfl rfl rfl rfl (fun v hv => modUnit_other s u v ({ · with gain := g }) hv) rfl rfl)
  | rdy u =>
    have h : execRdy u s = .next t := h
    unfold execRdy at h
    split at h <;> cases h
    exact one _ _ (same _ rfl rfl rfl rfl rfl rfl rfl rfl rfl rfl)
  | read u =>
    have h : execRead u s = .next t := h
    unfold execRead at h
    split at h <;> cases h
    · refine one _ _ ?_
      unfold readStart
      split <;> exact same _ rfl rfl rfl rfl rfl rfl rfl rfl rfl rfl
    · exact same _ rfl rfl rfl rfl rfl rfl rfl rfl rfl rfl
    · unfold pollCheck
      split <;> exact same _ rfl rfl rfl rfl rfl rfl rfl rfl rfl rfl
    · exact fgAcquire_frame u _ s
    all_goals exact same _ rfl rfl rfl rfl rfl rfl rfl rfl rfl rfl
  | nbread u =>
    have h : execNbread u s = .next t := h
    unfold execNbread at h
    split at h <;> cases h
    · exact one _ _ (same _ rfl rfl rfl rfl rfl rfl rfl rfl rfl rfl)
    · exact fgAcquire_frame u _ s
    all_goals exact same _ rfl rfl rfl rfl rfl rfl rfl rfl rfl rfl
  | iatt u =>
    have h : execIatt u s = .next t := h
    unfold execIatt at h
    split at h <;> cases h
    · exact one _ _ (same _ rfl rfl rfl rfl rfl rfl rfl rfl rfl rfl)
    · unfold attachArm
      split
      · exact same _ rfl rfl rfl rfl rfl rfl rfl rfl rfl rfl
      · rename_i j _
        exact triv _ rfl rfl rfl rfl rfl rfl rfl (fun v hv => modUnit_other (s.modSlot j fun _ => ⟨u, true, false⟩) u v ({ · with slotV := true, slot := j }) hv) rfl rfl
    · exact fgPowerCycle_frame u _ _ s
    · exact triv _ rfl rfl rfl rfl rfl rfl rfl (fun v hv => modUnit_other s u v ({ · with nextA := true }) hv) rfl rfl
    all_goals exact same _ rfl rfl rfl rfl rfl rfl rfl rfl rfl rfl
  | idet u =>
    have h : execIdet u s = .next t := h
    unfold execIdet at h
    split at h
    · cases h
      refine one _ _ ?_
      unfold detachStart
      split
      · exact detachWait_frame u s
      · exact same _ rfl rfl rfl rfl rfl rfl rfl rfl rfl rfl
    · exact detachLine_frame u (·.complete 1) _ s t
        (fun r hr => CommandFrame.same hr rfl rfl rfl rfl rfl rfl rfl rfl rfl rfl)
        ((ofLine_next _ _).1 h)
  | isim u =>
    have h : execIsim u s = .next t := h
    unfold execIsim at h
    split at h <;> cases h
    exact one _ _ (same _ rfl rfl rfl rfl rfl rfl rfl rfl rfl rfl)
  | graw u ch =>
    have h : execGraw u ch s = .next t := h
    unfold execGraw at h
    split at h <;> cases h
    exact one _ _ (same _ rfl rfl rfl rfl rfl rfl rfl rfl rfl rfl)
  | gcnt u =>
    have h : execGcnt u s = .next t := h
    unfold execGcnt at h
    split at h <;> cases h
    exact one _ _ (same _ rfl rfl rfl rfl rfl rfl rfl rfl rfl rfl)
  | gstate u =>
    have h : execGstate u s = .next t := h
    unfold execGstate at h
    split at h <;> cases h
    exact one _ _ (same _ rfl rfl rfl rfl rfl rfl rfl rfl rfl rfl)

end Sys2Proof.Machine
end

