-- ==== Sys2Proof/Laws/Command.lean ====
section
/-! SUPPORT. How a microstep of a command can end. -/

namespace Sys2Proof.Machine

/-- How one microstep of a command leaves the end-of-command fields: a command error at its first
microstep, a completion, or neither (rules R61, R100). -/
abbrev EndOf (s t : State) : Prop :=
  (s.fg = .start ∧ ∃ e, t = s.raise e) ∨
  (t.fg = .idle ∧ t.done = true ∧ t.err = s.err ∧ t.ecode = s.ecode) ∨
  (t.fg ≠ .idle ∧ t.result = s.result ∧ t.done = s.done ∧ t.err = s.err ∧ t.ecode = s.ecode)

theorem fgAcquire_end (u : UnitId) (a : Acq) (s : State) : EndOf s (fgAcquire u a s) := by
  rw [fgAcquire_eq]
  have h := acqStep_frame u a s
  refine .inr (.inr ⟨?_, h.result, h.done, h.err, h.ecode⟩)
  rw [State.goto_fg]
  split <;> simp

theorem fgPowerCycle_end (u : UnitId) (next : FgPos) (p : Pwr) (s : State) (hn : next ≠ .idle) :
    EndOf s (fgPowerCycle u next p s) := by
  rw [fgPowerCycle_eq]
  have h := pwrStep_frame u p s
  refine .inr (.inr ⟨?_, h.result, h.done, h.err, h.ecode⟩)
  rw [State.goto_fg]
  split <;> simp_all

theorem detachWait_end (u : UnitId) (s : State) : EndOf s (detachWait u s) := by
  unfold detachWait
  split <;> exact .inr (.inr ⟨by simp, rfl, rfl, rfl, rfl⟩)

theorem checked_end (c : Option CmdError) (s t : State) (hs : s.fg = .start) (ht : EndOf s t) :
    EndOf s (checked c s t) := by
  rcases checked_cases c s t with ⟨e, -, h⟩ | ⟨-, h⟩ <;> rw [h]
  · exact .inl ⟨hs, e, rfl⟩
  · exact ht

theorem detachLine_end (u : UnitId) (after : State → State) (p : FgPos) (s t : State)
    (ha : ∀ r, r.result = s.result → r.done = s.done → r.err = s.err → r.ecode = s.ecode →
      EndOf s (after r))
    (h : detachLine u after p s = some t) : EndOf s t := by
  unfold detachLine at h
  split at h <;> cases h
  · exact detachWait_end u s
  all_goals first
    | exact .inr (.inr ⟨by simp, rfl, rfl, rfl, rfl⟩)
    | exact ha _ rfl rfl rfl rfl

theorem resetLine_end (u : UnitId) (p : FgPos) (s t : State) (h : resetLine u p s = some t) :
    EndOf s t := by
  unfold resetLine at h
  split at h
  · cases h; exact .inr (.inr ⟨by simp, rfl, rfl, rfl, rfl⟩)
  · cases h; exact fgPowerCycle_end u _ _ s (by simp)
  · cases h; exact .inr (.inr ⟨by simp, rfl, rfl, rfl, rfl⟩)
  · cases h; exact .inr (.inl ⟨rfl, rfl, rfl, rfl⟩)
  · exact detachLine_end u (·.goto .pwrEnter) _ s t
      (fun r h1 h2 h3 h4 => .inr (.inr ⟨by simp, h1, h2, h3, h4⟩)) h

theorem resetStart_end (u : UnitId) (s : State) : EndOf s (resetStart u s) := by
  unfold resetStart detachStart
  split
  · exact detachWait_end u s
  · exact .inr (.inr ⟨by simp, rfl, rfl, rfl, rfl⟩)

/-- How every microstep of every command can end. -/
theorem exec_end (i : Instr) (s t : State) (h : exec i s = .next t) : EndOf s t := by
  have go (r : State) (h0 : r.fg ≠ .idle) (h1 : r.result = s.result) (h2 : r.done = s.done)
      (h3 : r.err = s.err) (h4 : r.ecode = s.ecode) : EndOf s r := .inr (.inr ⟨h0, h1, h2, h3, h4⟩)
  have fin (r : State) (h0 : r.fg = .idle) (h1 : r.done = true) (h3 : r.err = s.err)
      (h4 : r.ecode = s.ecode) : EndOf s r := .inr (.inl ⟨h0, h1, h3, h4⟩)
  cases i with
  | nop =>
    have h : execNop s = .next t := h
    unfold execNop at h
    split at h <;> cases h
    exact fin _ rfl rfl rfl rfl
  | init u =>
    have h : execInit u s = .next t := h
    unfold execInit at h
    split at h
    · next hs => cases h; exact checked_end _ _ _ hs (go _ (by simp [initStart]) rfl rfl rfl rfl)
    · cases h; exact resetStart_end u s
    · exact resetLine_end u _ s t ((ofLine_next _ _).1 h)
  | reset u =>
    have h : execReset u s = .next t := h
    unfold execReset at h
    split at h
    · next hs => cases h; exact checked_end _ _ _ hs (resetStart_end u s)
    · exact resetLine_end u _ s t ((ofLine_next _ _).1 h)
  | enb u b =>
    have h : execEnb u b s = .next t := h
    unfold execEnb at h
    split at h <;> cases h
    next hs => exact checked_end _ _ _ hs (fin _ rfl rfl rfl rfl)
  | gain u g =>
    have h : execGain u g s = .next t := h
    unfold execGain at h
    split at h <;> cases h
    next hs => exact checked_end _ _ _ hs (fin _ rfl rfl rfl rfl)
  | rdy u =>
    have h : execRdy u s = .next t := h
    unfold execRdy at h
    split at h <;> cases h
    next hs => exact checked_end _ _ _ hs (fin _ rfl rfl rfl rfl)
  | read u =>
    have h : execRead u s = .next t := h
    unfold execRead at h
    split at h <;> cases h
    · next hs =>
      refine checked_end _ _ _ hs ?_
      unfold readStart
      split
      · exact fin _ rfl rfl rfl rfl
      · exact go _ (by simp) rfl rfl rfl rfl
    · exact go _ (by simp) rfl rfl rfl rfl
    · unfold pollCheck
      split <;> exact go _ (by simp) rfl rfl rfl rfl
    · exact fgAcquire_end u _ s
    · exact go _ (by simp) rfl rfl rfl rfl
    · exact fin _ rfl rfl rfl rfl
    · exact go _ (by simp) rfl rfl rfl rfl
  | nbread u =>
    have h : execNbread u s = .next t := h
    unfold execNbread at h
    split at h <;> cases h
    · next hs => exact checked_end _ _ _ hs (go _ (by simp) rfl rfl rfl rfl)
    · exact fgAcquire_end u _ s
    · exact go _ (by simp) rfl rfl rfl rfl
    · exact fin _ rfl rfl rfl rfl
  | iatt u =>
    have h : execIatt u s = .next t := h
    unfold execIatt at h
    split at h <;> cases h
    · next hs => exact checked_end _ _ _ hs (go _ (by simp) rfl rfl rfl rfl)
    · unfold attachArm
      split <;> exact go _ (by simp) rfl rfl rfl rfl
    · exact fgPowerCycle_end u _ _ s (by simp)
    · exact go _ (by simp) rfl rfl rfl rfl
    · exact go _ (by simp) rfl rfl rfl rfl
    · exact fin _ rfl rfl rfl rfl
  | idet u =>
    have h : execIdet u s = .next t := h
    unfold execIdet at h
    split at h
    · next hs =>
      cases h
      refine checked_end _ _ _ hs ?_
      unfold detachStart
      split
      · exact detachWait_end u s
      · exact fin _ rfl rfl rfl rfl
    · exact detachLine_end u (·.complete 1) _ s t (fun r _ _ h3 h4 => fin _ rfl rfl h3 h4)
        ((ofLine_next _ _).1 h)
  | isim u =>
    have h : execIsim u s = .next t := h
    unfold execIsim at h
    split at h <;> cases h
    next hs => exact checked_end _ _ _ hs (fin _ rfl rfl rfl rfl)
  | graw u ch =>
    have h : execGraw u ch s = .next t := h
    unfold execGraw at h
    split at h <;> cases h
    next hs => exact checked_end _ _ _ hs (fin _ rfl rfl rfl rfl)
  | gcnt u =>
    have h : execGcnt u s = .next t := h
    unfold execGcnt at h
    split at h <;> cases h
    next hs => exact checked_end _ _ _ hs (fin _ rfl rfl rfl rfl)
  | gstate u =>
    have h : execGstate u s = .next t := h
    unfold execGstate at h
    split at h <;> cases h
    next hs => exact checked_end _ _ _ hs (fin _ rfl rfl rfl rfl)

end Sys2Proof.Machine
end

