-- ==== Sys2Proof/Laws/Encoding.lean ====
section
/-! SUPPORT. The decoder and the encoder: the fields of an assembled word, what a decoded command's word says of it, and both round trips' ingredients. -/

namespace Sys2Proof

theorem opcOf_eq (w : Word) : opcOf w = w.toNat % 64 := by
  simp [opcOf, BitVec.extractLsb'_toNat]

theorem unitOf_val (w : Word) : (unitOf w).val = w.toNat / 256 % 16 := by
  simp [unitOf, Nat.shiftRight_eq_div_pow]

/-- The opcode of a word is below 64. -/
theorem opcOf_lt (w : Word) : opcOf w < 64 := by
  rw [opcOf_eq]; exact Nat.mod_lt _ (by decide)

/-- A word that decodes has the opcode of its command, and its row's mask and match. -/
theorem decode_ok (w : Word) (i : Instr) (h : decode w = .ok i) :
    select (opcOf w) w = some i ∧ w &&& maskOf (opcOf w) = BitVec.ofNat 32 (opcOf w) := by
  unfold decode at h
  split at h
  · cases h
  · split at h
    · simp_all
    · cases h

/-- The opcode that selects a command is the command's. -/
theorem select_opcode (n : Nat) (w : Word) (i : Instr) (h : select n w = some i) :
    i.opcode = n ∧ n < 0x0E := by
  unfold select at h
  split at h <;> first | (cases h; done) | (cases h; exact ⟨rfl, by decide⟩)

/-- The unit a decoded command names is the `UNIT` field of the word. -/
theorem select_unit (n : Nat) (w : Word) (i : Instr) (u : UnitId) (h : select n w = some i)
    (hu : i.unit? = some u) : u = unitOf w := by
  unfold select at h
  split at h <;> first | (cases h; done) | (cases h; simp_all [Instr.unit?])

theorem decode_opcode (w : Word) (i : Instr) (h : decode w = .ok i) : i.opcode = opcOf w :=
  (select_opcode _ _ _ (decode_ok w i h).1).1

theorem decode_unit (w : Word) (i : Instr) (u : UnitId) (h : decode w = .ok i)
    (hu : i.unit? = some u) : u = unitOf w :=
  select_unit _ _ _ _ (decode_ok w i h).1 hu

end Sys2Proof
end

