-- ==== Sys2Proof/Laws/Flags.lean ====
section
/-! SUPPORT. The bits of the words the host reads. -/

namespace Sys2Proof

/-- Bit m of a word with one bit at position n. -/
theorem bitAt_getLsbD (n m : Nat) (b : Bool) :
    (bitAt n b).getLsbD m = (decide (m < 32) && decide (m = n) && b) := by
  unfold bitAt
  by_cases h1 : m < 32 <;> by_cases h2 : m < n <;> by_cases h3 : m = n <;> cases b <;>
    simp_all <;> omega

@[simp] theorem bitAt_getElem (n m : Nat) (b : Bool) (h : m < 32) :
    (bitAt n b)[m] = (decide (m = n) && b) := by
  rw [← BitVec.getLsbD_eq_getElem, bitAt_getLsbD]
  simp [h]

/-- Bit m of a number placed at position n. -/
theorem field_getLsbD (x n m : Nat) :
    (BitVec.ofNat 32 x <<< n).getLsbD m =
      (decide (m < 32) && decide (n ≤ m) && x.testBit (m - n)) := by
  by_cases h1 : m < 32 <;> by_cases h2 : n ≤ m
  · have : m - n < 32 := by omega
    simp [h1, h2, BitVec.getLsbD_shiftLeft, BitVec.getLsbD_ofNat, this,
      -BitVec.getLsbD_eq_getElem]
  · have : m < n := by omega
    simp [h1, h2, this, BitVec.getLsbD_shiftLeft, -BitVec.getLsbD_eq_getElem]
  · simp [h1]
  · simp [h1]

/-- A number below 2^k has no bit from position k on. -/
theorem testBit_of_lt {x k n : Nat} (hx : x < 2 ^ k) (h : k ≤ n) : x.testBit n = false :=
  Nat.testBit_lt_two_pow (lt_of_lt_of_le hx (Nat.pow_le_pow_right (by decide) h))

end Sys2Proof
end

