-- ==== Sys2Proof/Laws/PerInstr.lean ====
section
/-! SUPPORT. Laws of the commands as syntax, one lemma per command. -/

namespace Sys2Proof.Laws.EncodeMatches

/-- The encoder's word has the command's opcode and meets its row's mask and match (rules R53, R55). -/
def Statement (i : Instr) : Prop :=
  opcOf (encode i) = i.opcode ∧ encode i &&& maskOf i.opcode = BitVec.ofNat 32 i.opcode

theorem nop : Statement .nop := by unfold Statement; decide
theorem init (u : UnitId) : Statement (.init u) := by revert u; unfold Statement; decide
theorem reset (u : UnitId) : Statement (.reset u) := by revert u; unfold Statement; decide
theorem enb (u : UnitId) (b : Bool) : Statement (.enb u b) := by
  revert u b; unfold Statement; decide
theorem gain (u : UnitId) (g : Gain) : Statement (.gain u g) := by
  cases g <;> revert u <;> unfold Statement <;> decide
theorem rdy (u : UnitId) : Statement (.rdy u) := by revert u; unfold Statement; decide
theorem read (u : UnitId) : Statement (.read u) := by revert u; unfold Statement; decide
theorem nbread (u : UnitId) : Statement (.nbread u) := by revert u; unfold Statement; decide
theorem iatt (u : UnitId) : Statement (.iatt u) := by revert u; unfold Statement; decide
theorem idet (u : UnitId) : Statement (.idet u) := by revert u; unfold Statement; decide
theorem isim (u : UnitId) : Statement (.isim u) := by revert u; unfold Statement; decide
theorem graw (u : UnitId) (ch : Channel) : Statement (.graw u ch) := by
  cases ch <;> revert u <;> unfold Statement <;> decide
theorem gcnt (u : UnitId) : Statement (.gcnt u) := by revert u; unfold Statement; decide
theorem gstate (u : UnitId) : Statement (.gstate u) := by revert u; unfold Statement; decide

end Sys2Proof.Laws.EncodeMatches
end

