-- ==== Sys2Proof/Tests/Slice0.lean ====
section
/-! SUPPORT. The model's own tests (expected values from spec/95_test_vectors.md) and, for each obligation with hypotheses, a concrete state that meets them. -/

open Sys2Proof.Machine Sys2Proof.Claims

namespace Sys2Proof.Tests

/-! ### Small states -/

/-- FG stands at line p of command i. -/
def line (i : Instr) (p : FgPos) (s : State) : State := { s with cmd := encode i, fg := p }

/-- Unit 0 after `INIT`, clock low, nothing in progress. -/
def configured : State :=
  { State.reset with
    units := State.reset.units.put 0 { UnitBank.powerOn with cfg := true }
    sck := State.reset.sck.put 0 { drv := true, lvl := false }
    ghost := { State.reset.ghost with devsel := State.reset.ghost.devsel.put 0 .aHigh } }

/-- Unit 0 attached at slot 0, its last acquisition of channel B. -/
def attached : State :=
  { configured with
    units := configured.units.put 0
      { UnitBank.powerOn with cfg := true, slotV := true, slot := 0, last := .b }
    slots := configured.slots.put 0 { unit := 0, occ := true, pend := false } }

/-- All four slots taken by units 1 to 4. -/
def full : State :=
  { configured with slots :=
    #v[⟨1, true, false⟩, ⟨2, true, false⟩, ⟨3, true, false⟩, ⟨4, true, false⟩] }

/-- A dispatch of slot 0 for unit 0 at line l, FG idle. -/
def dispatching (l : IrqLine) : State := { attached with irq := some ⟨0, 0, l⟩, im := true }

/-- The next state an answer holds. -/
def answer (o : Out) : Option State :=
  match o with
  | .next t => some t
  | _ => none

/-- One step after the word w has been accepted. -/
def first (w : Nat) (s : State) : Option State := answer (step (s.withFetchWord 32 w))

/-- n more steps. -/
def more (n : Nat) (s : Option State) : Option State :=
  s.bind fun a => answer (Host.Core.run Sys2Proof.core n a)

/-! ### WellFormed and decoding -/

/-- The one check of WellFormed: a unit that does not exist (V-E9). -/
theorem test_wellFormed_unit : (Instr.read 9).wellFormed 8 = false ∧ (Instr.read 7).wellFormed 8 = true ∧
    Instr.nop.wellFormed 1 = true := by decide

/-- The assembly-to-words table of 95 section 2.1, every command. -/
theorem test_decode_words :
    decode 0x00000000 = .ok .nop ∧ decode 0x00000101 = .ok (.init 1) ∧
    decode 0x00000302 = .ok (.reset 3) ∧ decode 0x00001003 = .ok (.enb 0 true) ∧
    decode 0x00000703 = .ok (.enb 7 false) ∧ decode 0x00001004 = .ok (.gain 0 .low) ∧
    decode 0x00000204 = .ok (.gain 2 .high) ∧ decode 0x00000005 = .ok (.rdy 0) ∧
    decode 0x00000006 = .ok (.read 0) ∧ decode 0x00000507 = .ok (.nbread 5) ∧
    decode 0x00000208 = .ok (.iatt 2) ∧ decode 0x00000209 = .ok (.idet 2) ∧
    decode 0x0000000A = .ok (.isim 0) ∧ decode 0x0000000B = .ok (.graw 0 .a) ∧
    decode 0x0000260B = .ok (.graw 6 .b) ∧ decode 0x0000000C = .ok (.gcnt 0) ∧
    decode 0x0000000D = .ok (.gstate 0) ∧ decode 0x00000F0A = .ok (.isim 15) := by decide

/-- Words rejected by name: V-E2 to V-E8. -/
theorem test_decode_rejects :
    decode 0x0000000E = .error .opc ∧ decode 0xFFFFFFFF = .error .opc ∧
    decode 0x00000040 = .error .rsvd ∧ decode 0x00000100 = .error .rsvd ∧
    decode 0x00001005 = .error .rsvd ∧ decode 0x00002003 = .error .rsvd ∧
    decode 0x00004006 = .error .rsvd := by decide

/-- Byte lanes (rule R35): `GRAW u6, B` is 0B 26 00 00 from the lowest lane up. -/
theorem test_decode_lanes : decodeBytes [0x0B, 0x26, 0x00, 0x00] = some (.graw 6 .b) ∧
    decodeBytes [0x0B, 0x26, 0x00] = none := by decide

/-- The pseudo-instructions of 95 section 2.1 and the assembly text of rule R62. -/
theorem test_pseudo : encode (Pseudo.expand (.imode 2 true)) = 0x00000208 ∧
    encode (Pseudo.expand (.gainlo 0)) = 0x00001004 ∧
    encode (Pseudo.expand (.enboff 0)) = 0x00000003 ∧
    (Instr.graw 6 .b).text = "GRAW u6, B" := by decide

/-! ### Commands -/

/-- V-E1, V-E2, V-E4, V-E9, V-E11 and V-E12: `STATUS` after each word. -/
theorem test_status_after_words :
    (first 0x00000000 State.reset).map State.status = some 0x00000002 ∧
    (first 0x0000000E State.reset).map State.status = some 0x00000106 ∧
    (first 0x00000040 State.reset).map State.status = some 0x00000206 ∧
    (first 0x00000906 State.reset).map State.status = some 0x00000306 ∧
    (first 0x00000106 State.reset).map State.status = some 0x00000406 ∧
    (first 0x00000902 State.reset).map State.status = some 0x00000306 := by decide

/-- V-U1: `INIT u0` from power-on, then `GSTATE u0`; driven low, then a rising and a falling edge. -/
theorem test_init : (more 10 (first 0x00000001 State.reset)).map
    (fun t => (t.status, t.gstateWord 0, t.ghost.wave)) =
      some (0x00000002, 0x1609, [.edge 0 false, .edge 0 true, .drivenLow 0]) := by decide

/-- V-U2: `RESET` of an unconfigured unit makes no pin event. -/
theorem test_reset_unconfigured : (first 0x00000002 State.reset).map
    (fun t => (t.status, t.ghost.wave)) = some (0x00000406, []) := by decide

/-- V-U6: `RESET` detaches; `SLOTMAP` stays. -/
theorem test_reset_attached : (more 14 (first 0x00000002 attached)).map
    (fun t => (t.result, t.occWord, t.slotmapWord, (t.units.look 0).slotV, (t.units.look 0).last)) =
      some (0, 0, 0, false, .a) := by decide

/-- V-U3 and V-U4: `ENB u0, 1` sets bit 1 of `GSTATE`, `GAIN u0, LOW` bit 2. -/
theorem test_enb_gain : (first 0x00001003 configured).map (·.gstateWord 0) = some 0x160B ∧
    (first 0x00001004 configured).map (·.gstateWord 0) = some 0x160D := by decide

/-- V-A9: `RDY` with `DOUT` 1 and 0. -/
theorem test_rdy : (first 0x00000005 configured).map (·.result) = some 0 ∧
    (first 0x00000405 { configured with dout := configured.dout.put 4 false }).map (·.result) =
      some 1 := by decide

/-- V-A13: `READ` of an attached unit returns `last` with no pin event. -/
theorem test_read_attached : (first 0x00000006 attached).map
    (fun t => (t.result, t.ghost.wave, t.busy)) = some (1, [], false) := by decide

/-- P5 line 6: a `READ` that is not ready waits with `STATUS` 0x00000001 at its `Wait`. -/
theorem test_read_waits : (more 3 (first 0x00000006 configured)).map
    (fun t => (t.status, t.fg)) = some (0x00000001, .acqDone none) := by decide

/-- V-A14: `NBREAD` of an attached unit. -/
theorem test_nbread_attached : (first 0x00000007 attached).map
    (fun t => (t.status, t.result)) = some (0x00000506, 0) := by decide

/-- V-A10: `NBREAD u0` with samples 0x800000, in 25 pulses. -/
theorem test_nbread_frame :
    (more 181 (first 0x00000007 { configured with
      dout := configured.dout.put 0 false
      sched := acquireEvents 0 0x800000 1 ++ seqs 2 })).map
      (fun t => (t.result, (t.units.look 0).rawA, (t.units.look 0).cnt,
        t.ghost.wave.count (.edge 0 true))) = some (0, 0xFF800000, 1, 25) := by decide +kernel

/-- V-R1 and V-R2 in small: `IATT u0` takes slot 0; with all slots taken it answers 0. -/
theorem test_iatt : (more 10 (first 0x00000008 configured)).map
    (fun t => (t.result, t.occWord, t.slotmapWord)) = some (1, 0x00000001, 0) ∧
    (more 3 (first 0x00000008 full)).map
      (fun t => (t.result, t.occWord, t.slotmapWord, t.ghost.wave)) =
        some (0, 0x0000000F, 0x00004321, []) := by decide

/-- V-R4: a pin that is not capable. -/
theorem test_iatt_incapable :
    (more 3 (first 0x00000008 { configured with
      params := { configured.params with irqCapable := 0 } })).map
      (fun t => (t.result, t.occWord)) = some (0, 0) := by decide

/-- V-R8, and `IDET` of an attached unit. -/
theorem test_idet : (first 0x00000709 State.reset).map (·.result) = some 1 ∧
    (more 5 (first 0x00000009 attached)).map
      (fun t => (t.result, t.occWord, (t.units.look 0).slotV)) = some (1, 0, false) := by decide

/-- V-E13, and `ISIM` of an attached unit. -/
theorem test_isim : (first 0x0000000A State.reset).map (·.result) = some 0 ∧
    (first 0x0000000A attached).map (·.result) = some 1 := by decide

/-- V-Q1 and V-Q2. -/
theorem test_queries : (first 0x0000200B State.reset).map (·.result) = some 0 ∧
    (first 0x0000000C State.reset).map (·.result) = some 0 ∧
    (first 0x0000000D State.reset).map (·.result) = some 0x00000608 := by decide

/-! ### The engine's arithmetic, the bus and the interrupts -/

/-- S1. -/
theorem test_sext : sext32 0x000001 = 0x00000001 ∧ sext32 0x7FFFFF = 0x007FFFFF ∧
    sext32 0x800001 = 0xFF800001 ∧ sext32 0xFFFFF6 = 0xFFFFFFF6 := by decide

/-- V-A1 to V-A8. -/
theorem test_select :
    selectFrame false true .high = ⟨.a, true, 1⟩ ∧ selectFrame false true .low = ⟨.a, true, 3⟩ ∧
    selectFrame false false .high = ⟨.b, true, 1⟩ ∧ selectFrame false false .low = ⟨.b, true, 3⟩ ∧
    selectFrame true true .high = ⟨.a, false, 2⟩ ∧ selectFrame true true .low = ⟨.a, false, 2⟩ ∧
    selectFrame true false .high = ⟨.b, true, 1⟩ ∧
    selectFrame true false .low = ⟨.b, true, 3⟩ := by decide

/-- V-H1 and V-H3: a misaligned, a narrow and an unmapped read are bus errors; `CAP` is 0x00FF0408. -/
theorem test_bus_reads :
    ((State.reset.hostRead 0x02 4).resp, (State.reset.hostRead 0x04 2).resp,
      (State.reset.hostRead 0x20 4).resp, (State.reset.hostRead 0x14 4).resp) =
      (some ⟨true, 0⟩, some ⟨true, 0⟩, some ⟨true, 0⟩, some ⟨false, 0x00FF0408⟩) := by decide

/-- V-H2 and V-H4: a write to `RESULT` is ignored; a word written while busy sets `OVR`, and writing bit 3
of `STATUS` clears it. -/
theorem test_bus_writes :
    (State.reset.hostWrite 0x08 4 0x1234).result = 0 ∧
    ((line (.read 0) (.acqDone none) configured).hostWrite 0 4 0).status = 0x00000009 ∧
    ((line (.read 0) (.acqDone none) configured).hostWrite 0 4 0).cmd = 0x00000006 ∧
    (((line (.read 0) (.acqDone none) configured).hostWrite 0 4 0).hostWrite 4 4 8).status =
      0x00000001 := by decide

/-- V-D1: the edge is latched, the entry clears it, `STATUS` and `OCC` during the dispatch. -/
theorem test_dispatch_entry :
    (attached.drive 0 false).occWord = 0x00000011 ∧
    (answer (step (attached.drive 0 false))).map (fun t => (t.status, t.occWord)) =
      some (0x00000030, 0x00000001) := by decide

/-- V-D3 and V-D7: no latch while the engine operates the unit, none for a unit in no slot. -/
theorem test_no_latch : ({ attached with engU := some 0 }.drive 0 false).occWord = 0x00000001 ∧
    (attached.drive 6 false).occWord = 0x00000001 := by decide

/-- The end of a run (rule R136): not with a command word still to write, nor, with a unit attached, with
a falling edge to deliver; a low level on a line that is low already is none. -/
theorem test_runEnded :
    State.reset.runEnded = true ∧
    ({ State.reset with sched := [.hostWrite 0 4 0] } : State).runEnded = false ∧
    ({ attached with sched := [.dout 0 false] } : State).runEnded = false ∧
    ({ attached with sched := [.dout 9 false] } : State).runEnded = true ∧
    ({ attached with dout := attached.dout.put 0 false, sched := [.dout 0 false] } : State).runEnded =
      true ∧
    ({ attached with dout := attached.dout.put 0 false, sched := [.dout 0 true, .dout 0 false] } :
      State).runEnded = false ∧
    ({ configured with sched := [.dout 0 false] } : State).runEnded = true := by decide

/-- A power-on reset that arrives as an input (rule R122). -/
theorem test_powerOn : (answer (step { attached with sched := [.powerOn] })).map
    (fun t => (t.status, t.occWord, t.gstateWord 0)) = some (0, 0, 0x0608) := by decide

/-! ### Witnesses: for each obligation with hypotheses, states that meet them, clause by clause -/

theorem witness_EncodeOfDecode : decode 0x0000260B = .ok (.graw 6 .b) := by decide

theorem witness_OperandFieldsR54 : decode 0x00001F03 = .ok (.enb 15 true) ∧
    decode 0x00001004 = .ok (.gain 0 .low) ∧ decode 0x0000200B = .ok (.graw 0 .b) := by decide

/-- The three classes at the boundary opcodes 0x0D and 0x0E. -/
theorem witness_WordClassesR59 :
    let s (w : Word) : State := { State.reset with cmd := w, fg := .start }
    ((s 0x0E).fg = .start ∧ FgMoves (s 0x0E) ∧ 0x0E ≤ (s 0x0E).cmd.toNat % 64) ∧
    (FgMoves (s 0x100D) ∧ (s 0x100D).cmd.toNat % 64 < 0x0E ∧
      (s 0x100D).cmd &&& maskOf ((s 0x100D).cmd.toNat % 64) ≠
        BitVec.ofNat 32 ((s 0x100D).cmd.toNat % 64)) ∧
    (FgMoves (s 0x0F0D) ∧ (s 0x0F0D).cmd.toNat % 64 < 0x0E ∧
      (s 0x0F0D).cmd &&& maskOf ((s 0x0F0D).cmd.toNat % 64) =
        BitVec.ofNat 32 ((s 0x0F0D).cmd.toNat % 64)) ∧
    decode 0 = .ok .nop := by decide

theorem witness_StepRunsDecodedCommand :
    let s := line (.reset 0) .defaults configured
    FgMoves s ∧ s.fg ≠ .idle ∧ decode s.cmd = .ok (.reset 0) := by decide

/-- Each check of rule R102 failing alone, and all passing; units 7 and 8 are the boundary of `NUNITS`. -/
theorem witness_CommandChecksR102 :
    let s (w : Word) : State := { State.reset with cmd := w, fg := .start }
    FgMoves (s 0x0E) ∧ (s 0x0E).fg = .start ∧
    ((s 0x806).params.nunits ≤ (unitOf (s 0x806).cmd).val ∧ opcOf (s 0x806).cmd = 6) ∧
    ((unitOf (s 0x706).cmd).val < (s 0x706).params.nunits ∧
      ((s 0x706).units.look (unitOf (s 0x706).cmd)).cfg = false) ∧
    (let a : State := { attached with cmd := 0x07, fg := .start }
     FgMoves a ∧ (a.units.look 0).cfg = true ∧ (a.units.look 0).slotV = true) ∧
    (let a : State := { configured with cmd := 0x07, fg := .start }
     FgMoves a ∧ (a.units.look 0).cfg = true ∧ (a.units.look 0).slotV = false) := by decide

/-- For `NOP`, `ENB`, `GAIN`, `RDY`, `ISIM`, `GRAW`, `GCNT`, `GSTATE`, `INIT` and `IDET`: a command at its first
line, with the last unit that exists and the first that does not. -/
theorem witness_first_lines : (line .nop .start State.reset).fg = .start ∧
    (7 : UnitId).val < State.reset.params.nunits ∧
    State.reset.params.nunits ≤ (8 : UnitId).val := by decide

/-- `GSTATE`: a unit as power-on leaves it, and a configured one while the engine and the pins are idle. -/
theorem witness_GstateWordR99 :
    let r := line (.gstate 0) .start State.reset
    let c := line (.gstate 0) .start configured
    (r.units.look 0 = UnitBank.powerOn ∧ (r.sck.look 0).drv = false) ∧
    (c.irq = none ∧ EngineOk c ∧ PinsOk c ∧ (c.units.look 0).cfg = true) := by decide

theorem witness_ResetLines :
    let s := line (.reset 0) .start configured
    let a := line (.reset 0) .start attached
    let h : State := { a with units := a.units.put 0 { a.units.look 0 with inH := true } }
    (s.fg = .start ∧ (0 : UnitId).val < s.params.nunits ∧ (s.units.look 0).cfg = true ∧
      (s.units.look 0).slotV = false) ∧
    ((a.units.look 0).cfg = true ∧ (a.units.look 0).slotV = true ∧ (a.units.look 0).inH = false) ∧
    (h.fg = .start ∧ (h.units.look 0).cfg = true ∧ (h.units.look 0).slotV = true ∧
      (h.units.look 0).inH = true) := by decide

/-- `IDET` and DETACH_BODY: not attached, attached, and attached with an acquisition in progress. -/
theorem witness_IdetStarts_DetachLines :
    let a := line (.idet 0) .start attached
    let w := line (.idet 0) .detWait attached
    let h : State := { w with units := w.units.put 0 { w.units.look 0 with inH := true } }
    (line (.idet 0) .start configured).fg = .start ∧
    (configured.units.look 0).slotV = false ∧ a.fg = .start ∧
    (a.units.look 0).slotV = true ∧ (a.units.look 0).inH = false ∧
    w.fg = .detWait ∧ (w.units.look 0).inH = false ∧ h.fg = .detWait ∧
    (h.units.look 0).inH = true := by decide

/-- The arming: a free slot, each of the three failures, and the last slot free. -/
theorem witness_AttachArmsLowestFreeSlot :
    let s := line (.iatt 0) .arm configured
    let f := line (.iatt 0) .arm full
    let l : State := { f with slots := f.slots.put 3 { unit := 4, occ := false, pend := false } }
    (s.fg = .arm ∧ (s.units.look 0).slotV = false ∧
      s.params.irqCapable.getLsbD (0 : UnitId).val = true ∧ (s.slots.look 0).occ = false ∧
      ∀ j : SlotId, j < 0 → (s.slots.look j).occ = true) ∧
    (l.fg = .arm ∧ (l.slots.look 3).occ = false ∧
      ∀ j : SlotId, j < 3 → (l.slots.look j).occ = true) ∧
    (attached.units.look 0).slotV = true ∧
    s.params.irqCapable.getLsbD (8 : UnitId).val = false ∧
    ∀ i : SlotId, (f.slots.look i).occ = true := by decide

theorem witness_ReadAttachedReturnsLast :
    let a := line (.read 0) .start attached
    let c := line (.read 0) .start configured
    (a.fg = .start ∧ (0 : UnitId).val < a.params.nunits ∧ (a.units.look 0).cfg = true ∧
      (a.units.look 0).slotV = true) ∧
    (c.fg = .start ∧ (c.units.look 0).cfg = true ∧ (c.units.look 0).slotV = false) := by decide

theorem witness_NbreadLines :
    let c := line (.nbread 0) .start configured
    c.fg = .start ∧ (0 : UnitId).val < c.params.nunits ∧ (c.units.look 0).cfg = true ∧
      (c.units.look 0).slotV = false := by decide

/-- The statements about one line (`ResetDefaultsLine`, `PowerCycleLines`, `AttachEnds`, `ReadPollLines`,
`AcquireWrites`, `ExchangeLines`, `SelectTableR85`, `EveryLineAnswersNext`): a state stands at the line. -/
theorem witness_lines (i : Instr) (p : FgPos) (s : State) : (line i p s).fg = p := rfl

theorem witness_EveryLineAnswersNext :
    onProgram (.init 0) .resetBody = true ∧ onProgram (.reset 0) .clearSlot = true ∧
    onProgram (.read 0) (.acqExit none) = true ∧ onProgram (.nbread 0) (.acqExit (some .b)) = true ∧
    onProgram (.iatt 0) (.pwr .engOn) = true ∧ onProgram (.idet 0) (.deregClear 3) = true ∧
    onProgram .nop .start = true := by decide

theorem witness_SelectTableR85 : (dispatching (.acq .select)).irq = some ⟨0, 0, .acq .select⟩ := by
  decide

theorem witness_SignExtensionR87 : (0x800000 : BitVec 24).getLsbD 23 = true ∧
    (0x7FFFFF : BitVec 24).getLsbD 23 = false := by decide

/-- `RESET`, `IDET`: an attached unit and one that is not. -/
theorem witness_ResetRunsToDefaults :
    let c := line (.reset 0) .start configured
    let a := line (.reset 0) .start attached
    (Quiet c ∧ Accepted c (.reset 0) ∧ (0 : UnitId).val < c.params.nunits ∧
      (c.units.look 0).cfg = true ∧ (c.units.look 0).inH = false ∧
      (c.units.look 0).slotV = false) ∧
    (Quiet a ∧ Accepted a (.reset 0) ∧ (a.units.look 0).cfg = true ∧
      (a.units.look 0).inH = false ∧ (a.units.look 0).slotV = true) := by decide

theorem witness_InitRunsToDefaults :
    let s := line (.init 7) .start State.reset
    Quiet s ∧ Accepted s (.init 7) ∧ (7 : UnitId).val < s.params.nunits ∧
      (s.units.look 7).slotV = false := by decide

theorem witness_IdetRunsToDetached :
    let a := line (.idet 0) .start attached
    Quiet a ∧ Accepted a (.idet 0) ∧ (0 : UnitId).val < a.params.nunits ∧
      (a.units.look 0).slotV = true ∧ (a.units.look 0).inH = false := by decide

theorem witness_IattRunsToResult :
    let c := line (.iatt 0) .start configured
    let f := line (.iatt 0) .start full
    (Quiet c ∧ Accepted c (.iatt 0) ∧ (0 : UnitId).val < c.params.nunits ∧
      (c.units.look 0).cfg = true ∧ (c.units.look 0).slotV = false ∧
      c.params.irqCapable.getLsbD (0 : UnitId).val = true ∧ (c.slots.look 0).occ = false ∧
      ∀ j : SlotId, j < 0 → (c.slots.look j).occ = true) ∧
    (Quiet f ∧ Accepted f (.iatt 0) ∧ (f.units.look 0).cfg = true ∧
      ∀ i : SlotId, (f.slots.look i).occ = true) := by decide

theorem witness_NbreadAcquiresFrame :
    let s : State := { line (.nbread 0) .start configured with
      sched := acquireEvents 0 0x800001 1 ++ (seqs 2 ++ []) }
    Accepted s (.nbread 0) ∧ s.irq = none ∧ (∀ i : SlotId, (s.slots.look i).pend = false) ∧
      (0 : UnitId).val < s.params.nunits ∧ (s.units.look 0).cfg = true ∧
      (s.units.look 0).slotV = false ∧
      s.sched = acquireEvents 0 0x800001 (tableFrame (s.units.look 0)).k ++ (seqs 2 ++ []) :=
  ⟨by decide, by decide, by decide, by decide, by decide, by decide, rfl⟩

theorem witness_ReadAcquiresFrame :
    let s : State := { line (.read 0) .start configured with
      dout := configured.dout.put 0 false
      sched := seqs 2 ++ (acquireEvents 0 0x000064 1 ++ (seqs 2 ++ [])) }
    Accepted s (.read 0) ∧ s.irq = none ∧ s.im = false ∧
      (∀ i : SlotId, (s.slots.look i).pend = false) ∧ (0 : UnitId).val < s.params.nunits ∧
      (s.units.look 0).cfg = true ∧ (s.units.look 0).slotV = false ∧ s.dout.look 0 = false ∧
      s.sched = seqs 2 ++ (acquireEvents 0 0x000064 (tableFrame (s.units.look 0)).k ++
        (seqs 2 ++ [])) :=
  ⟨by decide, by decide, by decide, by decide, by decide, by decide, by decide, by decide, rfl⟩

theorem witness_DispatchAcquiresFrame :
    let s : State := { dispatching (.acq .enter) with
      sched := acquireEvents 0 0xFFFFF0 1 ++ (.seq :: []) }
    s.irq = some ⟨0, 0, .acq .enter⟩ ∧ (0 : UnitId).val < s.params.nunits ∧
      s.sched = acquireEvents 0 0xFFFFF0 (tableFrame (s.units.look 0)).k ++ (.seq :: []) :=
  ⟨by decide, by decide, rfl⟩

theorem witness_ReadWaitsWhileNotReady :
    let s := line (.read 0) .pollEnter configured
    Quiet s ∧ s.fg = .pollEnter ∧ s.cmd = encode (.read 0) ∧ s.dout.look 0 = true := by decide

/-- An edge that latches, a rising edge, and each of the four ways a pending bit is cleared. -/
theorem witness_EdgeLatchR108 :
    let e : State := { attached with sched := [.dout 0 false] }
    let p : State := { attached with slots := attached.slots.put 0 ⟨0, true, true⟩ }
    (e.sched = .dout 0 false :: [] ∧ (0 : UnitId).val < e.params.nunits) ∧
    (p.slots.look 0).pend = true ∧
    (answer (step p)).map (fun t => (t.slots.look 0).pend) = some false ∧
    (answer (step (line (.idet 0) (.deregClear 0) p))).map (fun t => (t.slots.look 0).pend) =
      some false ∧
    (answer (step (line (.iatt 0) .arm { configured with
      slots := configured.slots.put 0 ⟨5, false, true⟩ }))).map
        (fun t => (t.slots.look 0).pend) = some false ∧
    (answer (step { p with sched := [.powerOn] })).map (fun t => (t.slots.look 0).pend) =
      some false := by decide

/-- Slot 3 alone pending, and the entry from it. -/
theorem witness_IrqEntryR110 :
    let s : State := { attached with slots := attached.slots.put 3 ⟨5, true, true⟩ }
    s.nextEvent = .seq ∧ s.irq = none ∧ s.im = false ∧ s.fg.preemptible = true ∧
      (s.slots.look 3).pend = true ∧ (∀ j : SlotId, j < 3 → (s.slots.look j).pend = false) ∧
      (answer (step s)).map (fun t => t.irq) = some (some ⟨3, 5, .acq .enter⟩) := by decide

theorem witness_IrqExitR112 :
    (dispatching .exit).nextEvent = .seq ∧ (dispatching .exit).irq = some ⟨0, 0, .exit⟩ ∧
      (answer (step (dispatching .exit))).map (fun t => t.irq) = some none := by decide

/-- An exit with another slot pending: the entry follows at once. -/
theorem witness_IrqExitR112_pending :
    let s : State := { dispatching .exit with slots := attached.slots.put 0 ⟨0, true, true⟩ }
    s.sched = [] ∧ s.irq = some ⟨0, 0, .exit⟩ ∧ s.fg.preemptible = true ∧
      (s.slots.look 0).pend = true ∧
      (more 2 (some s)).map (fun t => t.irq) = some (some ⟨0, 0, .acq .enter⟩) := by decide

/-- Accesses at the edges of the window and of the mapped registers. -/
theorem witness_bus :
    let s (e : Event) : State := { State.reset with sched := [e] }
    (s (.hostWrite 0 4 5)).sched = .hostWrite (s (.hostWrite 0 4 5)).params.base 4 5 :: [] ∧
    (line .nop .start State.reset).fg ≠ .idle ∧ State.reset.fg = .idle ∧
    (s (.hostRead 0x14 4)).sched = .hostRead (State.reset.params.base + 0x14) 4 :: [] ∧
    (State.reset.params.base ≤ 0x3F ∧ 0x3F < State.reset.params.base + 64 ∧
      0x18 ≤ 0x3F - State.reset.params.base) ∧
    ((0x15 : Nat) - State.reset.params.base) % 4 ≠ 0 ∧ State.reset.params.base + 64 ≤ 0x40 ∧
    (0x0F : Nat) < ({ State.reset.params with base := 0x10 } : Params).base := by decide

/-- A `STATUS` write with `OVR` set and bit 3 of the word 1 and 0, and a write to a read-only register at
each end of the range. -/
theorem witness_RegisterAccesses_writes :
    let s (e : Event) : State := { State.reset with ovr := true, sched := [e] }
    (s (.hostWrite 4 4 8)).sched = .hostWrite (State.reset.params.base + 0x04) 4 8 :: [] ∧
    (8 : Word).getLsbD 3 = true ∧ (0xFFFFFFF7 : Word).getLsbD 3 = false ∧
    (answer (step (s (.hostWrite 4 4 8)))).map (·.ovr) = some false ∧
    (answer (step (s (.hostWrite 4 4 0xFFFFFFF7)))).map (·.ovr) = some true ∧
    (s (.hostWrite 8 4 5)).sched = .hostWrite (State.reset.params.base + 0x08) 4 5 :: [] ∧
    (s (.hostWrite 0x14 4 5)).sched = .hostWrite (State.reset.params.base + 0x14) 4 5 :: [] := by decide

/-- Accesses that straddle the start and the end of a window at 0x10, and the last ones that do not. -/
theorem witness_straddling :
    let p : Params := { State.reset.params with base := 0x10 }
    (0x0E < p.base ∧ p.base < 0x0E + 4) ∧ (0x0C < p.base ∧ 0x0C + 4 ≤ p.base) ∧
    (p.base ≤ 0x4E ∧ 0x4E < p.base + 64 ∧ p.base + 64 < 0x4E + 4) ∧
    (p.base ≤ 0x4C ∧ 0x4C < p.base + 64 ∧ 0x4C + 4 ≤ p.base + 64) := by decide

theorem witness_RegistryRegistersR22R23R24 : State.reset.params.wf := by decide

/-- A step that writes `RESULT` and ends a command. -/
theorem witness_command_end :
    let s := line (.isim 0) .start attached
    s.fg ≠ .idle ∧ (answer (step s)).map (fun t => (t.fg, decide (t.result ≠ s.result))) =
      some (.idle, true) := by decide

theorem witness_PowerOnValuesR122 :
    ({ attached with sched := [.powerOn] } : State).sched = .powerOn :: [] := rfl

/-- Unit 0 attached, a command of unit 1 in progress and unit 0's dispatch running. -/
def busyState : State :=
  { line (.read 1) .pollEnter (dispatching (.acq .select)) with
    units := ((attached.units.put 0 { attached.units.look 0 with inH := true, nextA := true }).put 1
      { UnitBank.powerOn with cfg := true })
    sck := attached.sck.put 1 { drv := true, lvl := false }
    engU := some 0 }

/-- That state meets the whole invariant, so every invariant statement's hypotheses. -/
theorem witness_Inv : Inv busyState where
  params := by decide
  position := by decide
  mask := by decide
  engine := by decide
  pins := by decide
  registry := ⟨by decide, by decide, by decide, by decide⟩
  lines := ⟨by decide, by decide, by decide, by decide, (fun i h => nomatch h), by decide,
    by decide, (fun p h => by cases h; decide)⟩
  raw := by decide
  status := by decide
  counts := ⟨by decide, by decide, (fun p a h h' => by cases h; cases h'; trivial),
    (fun a h => nomatch h)⟩
  sync := ⟨fun u h _ => (by decide : ∀ u : UnitId, busyState.ghost.devsel.look u ≠ .unknown →
    ((busyState.units.look u).nextA = true ↔ busyState.ghost.devsel.look u = .aHigh ∨
      busyState.ghost.devsel.look u = .aLow)) u h, by decide⟩

/-- A dispatch microstep, for the statements about one (`CommandChecksR102`,
`DispatchTouchesOnlyItsUnit`) and for those about any step. -/
theorem witness_step : busyState.nextEvent = .seq ∧ busyState.irq.isSome = true ∧
    (answer (step busyState)).isSome = true := by decide

theorem witness_OtherUnitsUntouched : busyState.nextEvent ≠ .powerOn ∧
    (∀ p, busyState.irq = some p → p.unit ≠ 2) ∧
    (busyState.irq = none → unitOf busyState.cmd ≠ 2) := by
  refine ⟨by decide, fun p h => ?_, by decide⟩
  cases h
  decide

end Sys2Proof.Tests
end

section
/-! PROOFS. What one microstep of a command can do, said once, line by line: the inversion lemma
`exec_line`, from which the invariants below are derived. -/

namespace Sys2Proof.Machine

/-! ### The commands that share a body -/

/-- The commands that run RESET_BODY (rules R81, R82). -/
abbrev Resets (i : Instr) (u : UnitId) : Prop := i = .init u ∨ i = .reset u

/-- The commands that run DETACH_BODY (rule R94). -/
abbrev Detaches (i : Instr) (u : UnitId) : Prop := Resets i u ∨ i = .idet u

/-- The commands that run ACQUIRE in the foreground (rules R91, R92). -/
abbrev Acquires (i : Instr) (u : UnitId) : Prop := i = .read u ∨ i = .nbread u

/-- The line after PWRCYCLE in each command that runs it (rules R82, R93). -/
abbrev AfterPowerCycle (i : Instr) (u : UnitId) (next : FgPos) : Prop :=
  (Resets i u ∧ next = .pwrExit) ∨ (i = .iatt u ∧ next = .attachNext)

/-- The positions from which DETACH_BODY tests its unit: its first line, at which the unit has just been
found attached, or its label `wait` (rule R94). -/
abbrev DetachTest (u : UnitId) (s : State) : Prop :=
  ((s.fg = .start ∨ s.fg = .resetBody) ∧ (s.units.look u).slotV = true) ∨ s.fg = .detWait

/-- What one microstep of command i on unit u can do in the state s: one constructor per line of the
pseudocode (rules R80 to R99), with what the line has checked. `exec_line` ties it to `exec`. -/
inductive CommandLine (i : Instr) (u : UnitId) (s : State) : State → Prop
  | fail (e : CmdError) (hp : s.fg = .start) : CommandLine i u s (s.raise e)
  | answer (r : Word) (hp : s.fg = .start) : CommandLine i u s (s.complete r)
  | setEnB (b : Bool) (hp : s.fg = .start) :
      CommandLine i u s ((s.modUnit u ({ · with enB := b })).complete 0)
  | setGain (g : Gain) (hp : s.fg = .start) :
      CommandLine i u s ((s.modUnit u ({ · with gain := g })).complete 0)
  | initPins (hp : s.fg = .start) (hi : i = .init u) (hu : u.val < s.params.nunits) :
      CommandLine i u s (initStart u s)
  | detachBusy (hp : DetachTest u s) (hi : Detaches i u) (hh : (s.units.look u).inH = true) :
      CommandLine i u s ((s.wait s.params.tPoll).goto .detWait)
  | detachReady (hp : DetachTest u s) (hi : Detaches i u) (hh : (s.units.look u).inH = false) :
      CommandLine i u s (s.goto .deregEnter)
  | deregEnter (hp : s.fg = .deregEnter) (hi : Detaches i u) :
      CommandLine i u s (s.mask.goto .deregSlot)
  | deregSlot (hp : s.fg = .deregSlot) (hi : Detaches i u) :
      CommandLine i u s (s.goto (.deregClear (s.units.look u).slot))
  | deregClear (j : SlotId) (hp : s.fg = .deregClear j) (hi : Detaches i u) :
      CommandLine i u s ((s.deregister j).goto .deregExit)
  | deregExit (hp : s.fg = .deregExit) (hi : Detaches i u) :
      CommandLine i u s (s.unmask.goto .clearSlot)
  | clearedDone (hp : s.fg = .clearSlot) (hi : i = .idet u) :
      CommandLine i u s ((s.clearSlot u).complete 1)
  | clearedReset (hp : s.fg = .clearSlot) (hi : Resets i u) :
      CommandLine i u s ((s.clearSlot u).goto .pwrEnter)
  | resetDetached (hp : s.fg = .start ∨ s.fg = .resetBody) (hi : Resets i u)
      (hv : (s.units.look u).slotV = false) : CommandLine i u s (s.goto .pwrEnter)
  | pwrEnter (hp : s.fg = .pwrEnter) (hi : Resets i u) :
      CommandLine i u s (s.mask.goto (.pwr .engOn))
  | pwr (q : Pwr) (next : FgPos) (hp : s.fg = .pwr q) (hi : AfterPowerCycle i u next) :
      CommandLine i u s (fgPowerCycle u next q s)
  | pwrExit (hp : s.fg = .pwrExit) (hi : Resets i u) : CommandLine i u s (s.unmask.goto .defaults)
  | defaults (hp : s.fg = .defaults) (hi : Resets i u) :
      CommandLine i u s ((s.modUnit u UnitBank.defaults).complete 0)
  | readStart (hp : s.fg = .start) (hi : i = .read u) (hv : (s.units.look u).slotV = false) :
      CommandLine i u s (s.goto .pollEnter)
  | pollEnter (hp : s.fg = .pollEnter) (hi : i = .read u) :
      CommandLine i u s (s.mask.goto .pollCheck)
  | pollBusy (hp : s.fg = .pollCheck) (hi : i = .read u) (hr : s.pinRead u = true) :
      CommandLine i u s (s.goto (.acqExit none))
  | pollReady (hp : s.fg = .pollCheck) (hi : i = .read u) (hr : s.pinRead u = false) :
      CommandLine i u s (s.goto (.acq .enter))
  | nbreadStart (hp : s.fg = .start) (hi : i = .nbread u) (hc : checkMode s u = none) :
      CommandLine i u s (s.mask.goto (.acq .enter))
  | acq (a : Acq) (hp : s.fg = .acq a) (hi : Acquires i u) : CommandLine i u s (fgAcquire u a s)
  | acqExit (r : Option Channel) (hp : s.fg = .acqExit r)
      (hi : i = .read u ∨ (i = .nbread u ∧ r.isSome = true)) :
      CommandLine i u s (s.unmask.goto (.acqDone r))
  | acqDone (ch : Channel) (hp : s.fg = .acqDone (some ch)) :
      CommandLine i u s (s.complete (channelWord ch))
  | pollAgain (hp : s.fg = .acqDone none) (hi : i = .read u) :
      CommandLine i u s ((s.wait s.params.tPoll).goto .pollEnter)
  | iattStart (hp : s.fg = .start) (hi : i = .iatt u) (hu : u.val < s.params.nunits)
      (hc : (s.units.look u).cfg = true) : CommandLine i u s (s.mask.goto .arm)
  | armFail (hp : s.fg = .arm) (hi : i = .iatt u) : CommandLine i u s (s.goto (.attachExit true))
  | arm (j : SlotId) (hp : s.fg = .arm) (hi : i = .iatt u) (hj : attachSlot u s = some j) :
      CommandLine i u s ((s.arm u j).goto (.pwr .engOn))
  | attachNext (hp : s.fg = .attachNext) (hi : i = .iatt u) :
      CommandLine i u s ((s.modUnit u ({ · with nextA := true })).goto (.attachExit false))
  | attachExit (f : Bool) (hp : s.fg = .attachExit f) (hi : i = .iatt u) :
      CommandLine i u s (s.unmask.goto (.attachDone f))
  | attachDone (f : Bool) (hp : s.fg = .attachDone f) (hi : i = .iatt u) :
      CommandLine i u s (s.complete (boolWord (!f)))

/-- A command's first microstep fails its checks or runs its first line (rule R102). -/
theorem checked_line {i : Instr} {u : UnitId} {c : Option CmdError} {s t : State}
    (hp : s.fg = .start) (ht : c = none → CommandLine i u s t) : CommandLine i u s (checked c s t) := by
  rcases checked_cases c s t with ⟨e, -, h⟩ | ⟨hc, h⟩ <;> rw [h]
  · exact .fail e hp
  · exact ht hc

theorem detachWait_line {i : Instr} {u : UnitId} {s : State} (hp : DetachTest u s)
    (hi : Detaches i u) : CommandLine i u s (detachWait u s) := by
  unfold detachWait
  cases hh : (s.units.look u).inH
  · exact .detachReady hp hi hh
  · exact .detachBusy hp hi hh

theorem detachStart_line {i : Instr} {u : UnitId} {after : State → State} {s : State}
    (hp : s.fg = .start ∨ s.fg = .resetBody) (hi : Detaches i u)
    (ha : (s.units.look u).slotV = false → CommandLine i u s (after s)) :
    CommandLine i u s (detachStart u after s) := by
  unfold detachStart
  cases hv : (s.units.look u).slotV
  · exact ha hv
  · exact detachWait_line (.inl ⟨hp, hv⟩) hi

theorem resetStart_line {i : Instr} {u : UnitId} {s : State}
    (hp : s.fg = .start ∨ s.fg = .resetBody) (hi : Resets i u) :
    CommandLine i u s (resetStart u s) :=
  detachStart_line hp (.inl hi) fun hv => .resetDetached hp hi hv

theorem detachLine_line {i : Instr} {u : UnitId} {after : State → State} {p : FgPos} {s t : State}
    (hp : s.fg = p) (hi : Detaches i u)
    (ha : s.fg = .clearSlot → CommandLine i u s (after (s.clearSlot u)))
    (h : detachLine u after p s = some t) : CommandLine i u s t := by
  unfold detachLine at h
  split at h <;> cases h
  · exact detachWait_line (.inr hp) hi
  · exact .deregEnter hp hi
  · exact .deregSlot hp hi
  · exact .deregClear _ hp hi
  · exact .deregExit hp hi
  · exact ha hp

theorem resetLine_line {i : Instr} {u : UnitId} {p : FgPos} {s t : State} (hp : s.fg = p)
    (hi : Resets i u) (h : resetLine u p s = some t) : CommandLine i u s t := by
  unfold resetLine at h
  split at h
  · cases h; exact .pwrEnter hp hi
  · cases h; exact .pwr _ _ hp (.inl ⟨hi, rfl⟩)
  · cases h; exact .pwrExit hp hi
  · cases h; exact .defaults hp hi
  · exact detachLine_line hp (.inl hi) (fun hc => .clearedReset hc hi) h

theorem readStart_line {u : UnitId} {s : State} (hp : s.fg = .start) :
    CommandLine (.read u) u s (Machine.readStart u s) := by
  unfold Machine.readStart
  cases hv : (s.units.look u).slotV
  · exact .readStart hp rfl hv
  · exact .answer _ hp

theorem pollCheck_line {u : UnitId} {s : State} (hp : s.fg = .pollCheck) :
    CommandLine (.read u) u s (pollCheck u s) := by
  unfold pollCheck
  cases hr : s.pinRead u
  · exact .pollReady hp rfl hr
  · exact .pollBusy hp rfl hr

theorem attachArm_line {u : UnitId} {s : State} (hp : s.fg = .arm) :
    CommandLine (.iatt u) u s (attachArm u s) := by
  unfold attachArm
  split
  · exact .armFail hp rfl
  · next hj => exact .arm _ hp rfl hj

/-- A command of one microstep answers only before its checks. -/
theorem oneStep_line {i : Instr} {u : UnitId} {s t r : State}
    (hr : s.fg = .start → CommandLine i u s r)
    (h : (match s.fg with | .start => .next r | _ => .fault .offProgram : Out) = .next t) :
    CommandLine i u s t := by
  split at h <;> cases h
  exact hr ‹_›

/-- Every microstep of a command is one of its lines. -/
theorem exec_line (i : Instr) (s t : State) (h : exec i s = .next t) :
    CommandLine i (Instr.workUnit i) s t := by
  cases i with
  | nop => exact oneStep_line (fun hp => .answer 0 hp) h
  | init u =>
    have h : execInit u s = .next t := h
    unfold execInit at h
    split at h
    · next hp =>
      cases h
      exact checked_line hp fun hc => .initPins hp rfl ((checkUnit_eq_none s u).1 hc)
    · next hp => cases h; exact resetStart_line (.inr hp) (.inl rfl)
    · exact resetLine_line rfl (.inl rfl) ((ofLine_next _ _).1 h)
  | reset u =>
    have h : execReset u s = .next t := h
    unfold execReset at h
    split at h
    · next hp => cases h; exact checked_line hp fun _ => resetStart_line (.inl hp) (.inr rfl)
    · exact resetLine_line rfl (.inr rfl) ((ofLine_next _ _).1 h)
  | enb u b => exact oneStep_line (fun hp => checked_line hp fun _ => .setEnB b hp) h
  | gain u g => exact oneStep_line (fun hp => checked_line hp fun _ => .setGain g hp) h
  | rdy u => exact oneStep_line (fun hp => checked_line hp fun _ => .answer _ hp) h
  | read u =>
    have h : execRead u s = .next t := h
    unfold execRead at h
    split at h <;> cases h
    · next hp => exact checked_line hp fun _ => readStart_line hp
    · next hp => exact .pollEnter hp rfl
    · next hp => exact pollCheck_line hp
    · next hp => exact .acq _ hp (.inl rfl)
    · next hp => exact .acqExit _ hp (.inl rfl)
    · next hp => exact .acqDone _ hp
    · next hp => exact .pollAgain hp rfl
  | nbread u =>
    have h : execNbread u s = .next t := h
    unfold execNbread at h
    split at h <;> cases h
    · next hp => exact checked_line hp fun hc => .nbreadStart hp rfl hc
    · next hp => exact .acq _ hp (.inr rfl)
    · next hp => exact .acqExit _ hp (.inr ⟨rfl, rfl⟩)
    · next hp => exact .acqDone _ hp
  | iatt u =>
    have h : execIatt u s = .next t := h
    unfold execIatt at h
    split at h <;> cases h
    · next hp =>
      refine checked_line hp fun hc => ?_
      obtain ⟨hu, hcfg⟩ := (checkCfg_eq_none s u).1 hc
      exact .iattStart hp rfl hu hcfg
    · next hp => exact attachArm_line hp
    · next hp => exact .pwr _ _ hp (.inr ⟨rfl, rfl⟩)
    · next hp => exact .attachNext hp rfl
    · next hp => exact .attachExit _ hp rfl
    · next hp => exact .attachDone _ hp rfl
  | idet u =>
    have h : execIdet u s = .next t := h
    unfold execIdet at h
    split at h
    · next hp =>
      cases h
      exact checked_line hp fun _ => detachStart_line (.inl hp) (.inr rfl) fun _ => .answer 1 hp
    · exact detachLine_line rfl (.inr rfl) (fun hc => .clearedDone hc rfl) ((ofLine_next _ _).1 h)
  | isim u => exact oneStep_line (fun hp => checked_line hp fun _ => .answer _ hp) h
  | graw u ch => exact oneStep_line (fun hp => checked_line hp fun _ => .answer _ hp) h
  | gcnt u => exact oneStep_line (fun hp => checked_line hp fun _ => .answer _ hp) h
  | gstate u => exact oneStep_line (fun hp => checked_line hp fun _ => .answer _ hp) h

end Sys2Proof.Machine
end

section
/-! PROOFS. What one step of the machine can do, said once: the inversion lemma `step_move`. -/

namespace Sys2Proof.Machine

/-! ### The command in `CMD` -/

/-- The unit a command in `CMD` works on is the `UNIT` field, for `NOP` too: its word is 0. -/
theorem decode_workUnit {w : Word} {i : Instr} (h : decode w = .ok i) :
    Instr.workUnit i = unitOf w := by
  cases hu : i.unit? with
  | some u =>
    rw [Instr.workUnit, hu]
    exact decode_unit w i u h hu
  | none =>
    have hnop : i = .nop := by
      cases i with
      | nop => rfl
      | _ => cases hu
    subst hnop
    obtain ⟨-, hm⟩ := decode_ok w _ h
    rw [← decode_opcode w _ h] at hm
    have hw : w = 0 := (BitVec.and_allOnes (x := w)).symm.trans hm
    subst hw
    rfl

/-- An error's code is 1 to 5 (rule R101). -/
theorem errorCode_range (e : CmdError) : 1 ≤ (errorCode e).toNat ∧ (errorCode e).toNat ≤ 5 := by
  cases e <;> decide

/-! ### One step of the machine -/

/-- Every bank after power-on (rule R122). -/
@[simp] theorem powerOnReset_unit (s : State) (u : UnitId) :
    s.powerOnReset.units.look u = UnitBank.powerOn :=
  look_replicate _ u

/-- Every slot after power-on (rule R122). -/
@[simp] theorem powerOnReset_slot (s : State) (i : SlotId) :
    s.powerOnReset.slots.look i = { unit := 0, occ := false, pend := false } :=
  look_replicate _ i

/-- The registry after an environment step: pending bits only, and only of occupied slots (rule R108). -/
abbrev Latched (v w : Vector Slot 4) : Prop :=
  ∀ i : SlotId, (w.look i).unit = (v.look i).unit ∧ (w.look i).occ = (v.look i).occ ∧
    ((w.look i).pend = true → (v.look i).pend = true ∨ (v.look i).occ = true)

theorem drive_latched (s : State) (w : UnitId) (lvl : Bool) :
    ∃ d sl, Latched s.slots sl ∧ s.drive w lvl = { s with dout := d, slots := sl } := by
  by_cases h : w.val < s.params.nunits
  · refine ⟨_, _, fun i => ?_, drive_eq s w lvl h⟩
    split
    · rw [mapSlots_get, latch_eq]
      refine ⟨rfl, rfl, fun hp => ?_⟩
      rw [Bool.or_eq_true] at hp
      exact hp.imp_right fun h => by simp_all
    · exact ⟨rfl, rfl, .inl⟩
  · exact ⟨s.dout, s.slots, fun i => ⟨rfl, rfl, .inl⟩, drive_absent s w lvl (by omega)⟩

/-- What one step can do to the state s whose event has been taken off (rules R43, R105): one constructor
for each way. The sequencer's rest at `IDLE` is an `outside` that writes back what is there. -/
inductive Move (s : State) : State → Prop
  | outside (r : Option BusResp) (o : Bool) : Move s { s with resp := r, ovr := o }
  | accept (w : Word) (r : Option BusResp) (hp : s.fg = .idle) : Move s { s.accept w with resp := r }
  | drive (d : Vector Bool 16) (sl : Vector Slot 4) (hs : Latched s.slots sl) :
      Move s { s with dout := d, slots := sl }
  | powerOn : Move s s.powerOnReset
  | dispatch (p : IrqPos) (a : Acq) (hp : s.irq = some p) (hl : p.line = .acq a) : Move s (irqStep p s)
  | exit (p : IrqPos) (hp : s.irq = some p) (hl : p.line = .exit) : Move s s.irqExit
  | enter (j : SlotId) (hr : s.irqReady = some j) : Move s (s.irqEnter j)
  | illegal (e : CmdError) (hn : s.irq = none) (hp : s.fg = .start) : Move s (s.raise e)
  | command (i : Instr) (t : State) (hn : s.irq = none) (hf : s.fg ≠ .idle) (hd : decode s.cmd = .ok i)
      (he : exec i s = .next t) (hl : CommandLine i (unitOf s.cmd) s t) : Move s t

theorem foreground_move {s t : State} (hn : s.irq = none) (h : foreground s = .next t) : Move s t := by
  rcases foreground_next s t h with ⟨-, rfl⟩ | ⟨hf, i, hd, he⟩ | ⟨hp, e, -, rfl⟩
  · exact .outside t.resp t.ovr
  · exact .command i t hn hf hd he (decode_workUnit hd ▸ exec_line i s t he)
  · exact .illegal e hn hp

theorem hostRead_move (s : State) (addr n : Nat) : Move s (s.hostRead addr n) := by
  obtain ⟨r, h⟩ := hostRead_eq s addr n
  exact h ▸ .outside r s.ovr

theorem hostWrite_move (s : State) (addr n : Nat) (v : Word) : Move s (s.hostWrite addr n v) := by
  obtain ⟨r, h | ⟨hp, h⟩ | ⟨o, h⟩⟩ := hostWrite_cases s addr n v <;> rw [h]
  · exact .outside r s.ovr
  · exact .accept v r hp
  · exact .outside r o

theorem irqStep_move {s : State} {p : IrqPos} (hp : s.irq = some p) : Move s (irqStep p s) := by
  cases hl : p.line with
  | acq a => exact .dispatch p a hp hl
  | exit => rw [irqStep_exit p s hl]; exact .exit p hp hl

/-- Every step is one of these moves. -/
theorem step_move {s t : State} (h : step s = .next t) : Move s.popEvent t := by
  rcases step_next s t h with ⟨addr, n, -, rfl⟩ | ⟨addr, n, v, -, rfl⟩ | ⟨u, lvl, -, rfl⟩ |
    ⟨-, rfl⟩ | ⟨-, p, hp, rfl⟩ | ⟨-, -, j, hr, rfl⟩ | ⟨-, hn, -, hf⟩
  · exact hostRead_move _ addr n
  · exact hostWrite_move _ addr n v
  · obtain ⟨d, sl, hs, e⟩ := drive_latched s.popEvent u lvl
    exact e ▸ .drive d sl hs
  · exact .powerOn
  · exact irqStep_move hp
  · exact .enter j hr
  · exact foreground_move hn hf

end Sys2Proof.Machine
end

section
/-! PROOFS. The foreground position: every line of a command answers, and leads to a line of the same
command or to its end (rule R17). -/

namespace Sys2Proof.Machine

/-! ### The lines of the commands and the foreground position (rule R17) -/

theorem detachLine_answers {u : UnitId} {after : State → State} {p : FgPos} {s : State}
    (h : p.inDetach = true) : ∃ t, detachLine u after p s = some t := by
  cases p with
  | detWait | deregEnter | deregSlot | deregClear _ | deregExit | clearSlot => exact ⟨_, rfl⟩
  | _ => cases h

theorem resetLine_answers {u : UnitId} {p : FgPos} {s : State} (h : p.inReset = true) :
    ∃ t, resetLine u p s = some t := by
  cases p with
  | pwrEnter | pwr _ | pwrExit | defaults => exact ⟨_, rfl⟩
  | detWait | deregEnter | deregSlot | deregClear _ | deregExit | clearSlot => exact ⟨_, rfl⟩
  | _ => cases h

theorem ofLine_answers {r : Option State} (h : ∃ t, r = some t) : ∃ t, ofLine r = .next t :=
  h.imp fun _ e => (ofLine_next _ _).2 e

/-- A command of one microstep answers before its checks. -/
theorem oneStep_answers {s r : State} (hp : s.fg = .start) :
    ∃ t, (match s.fg with | .start => .next r | _ => .fault .offProgram : Out) = .next t :=
  ⟨r, by rw [hp]⟩

/-- At a line of its pseudocode a command answers a next state. -/
theorem exec_answers {i : Instr} {s : State} (h : onProgram i s.fg = true) :
    ∃ t, exec i s = .next t := by
  cases i with
  | nop | enb _ _ | gain _ _ | rdy _ | isim _ | graw _ _ | gcnt _ | gstate _ =>
    exact oneStep_answers (by simpa [onProgram] using h)
  | init u =>
    show ∃ t, execInit u s = .next t
    unfold execInit
    split
    · exact ⟨_, rfl⟩
    · exact ⟨_, rfl⟩
    · exact ofLine_answers (resetLine_answers (by simp_all [onProgram]))
  | reset u =>
    show ∃ t, execReset u s = .next t
    unfold execReset
    split
    · exact ⟨_, rfl⟩
    · exact ofLine_answers (resetLine_answers (by simp_all [onProgram]))
  | read u =>
    show ∃ t, execRead u s = .next t
    unfold execRead
    cases hp : s.fg with
    | start | pollEnter | pollCheck | acq _ | acqExit _ => exact ⟨_, rfl⟩
    | acqDone r => cases r <;> exact ⟨_, rfl⟩
    | _ => rw [hp] at h; cases h
  | nbread u =>
    show ∃ t, execNbread u s = .next t
    unfold execNbread
    cases hp : s.fg with
    | start | acq _ => exact ⟨_, rfl⟩
    | acqExit r | acqDone r =>
      rw [hp] at h
      cases r with
      | some ch => exact ⟨_, rfl⟩
      | none => cases h
    | _ => rw [hp] at h; cases h
  | iatt u =>
    show ∃ t, execIatt u s = .next t
    unfold execIatt
    cases hp : s.fg with
    | start | arm | pwr _ | attachNext | attachExit _ | attachDone _ => exact ⟨_, rfl⟩
    | _ => rw [hp] at h; cases h
  | idet u =>
    show ∃ t, execIdet u s = .next t
    unfold execIdet
    split
    · exact ⟨_, rfl⟩
    · exact ofLine_answers (detachLine_answers (by simp_all [onProgram]))

/-- A microstep of ACQUIRE in the foreground leads to another line of it, or to the end of the block. -/
theorem fgAcquire_fg (u : UnitId) (a : Acq) (s : State) :
    (∃ a', (fgAcquire u a s).fg = .acq a') ∨ ∃ ch, (fgAcquire u a s).fg = .acqExit (some ch) := by
  rw [fgAcquire_eq]
  cases (acqStep u a s).1 with
  | more a' => exact .inl ⟨a', rfl⟩
  | done ch => exact .inr ⟨ch, rfl⟩

/-- A microstep of PWRCYCLE leads to another line of it, or to the line after it. -/
theorem fgPowerCycle_fg (u : UnitId) (next : FgPos) (q : Pwr) (s : State) :
    (∃ q', (fgPowerCycle u next q s).fg = .pwr q') ∨ (fgPowerCycle u next q s).fg = next := by
  rw [fgPowerCycle_eq]
  cases (pwrStep u q s).1 with
  | some q' => exact .inl ⟨q', rfl⟩
  | none => exact .inr rfl

/-- Every line of a command leads to another line of it, or to its end. -/
theorem CommandLine.onProgram {i : Instr} {u : UnitId} {s t : State} (h : CommandLine i u s t) :
    t.fg = .idle ∨ onProgram i t.fg = true := by
  cases h with
  | fail | answer | setEnB | setGain | clearedDone | defaults | acqDone | attachDone => exact .inl rfl
  | initPins _ hi | readStart _ hi | pollEnter _ hi | pollBusy _ hi | pollReady _ hi
  | nbreadStart _ hi | pollAgain _ hi | iattStart _ hi | armFail _ hi | arm _ _ hi | attachNext _ hi
  | attachExit _ _ hi =>
    subst hi
    exact .inr rfl
  | detachBusy _ hi | detachReady _ hi | deregEnter _ hi | deregSlot _ hi | deregClear _ _ hi
  | deregExit _ hi =>
    obtain (rfl | rfl) | rfl := hi <;> exact .inr rfl
  | clearedReset _ hi | resetDetached _ hi | pwrEnter _ hi | pwrExit _ hi =>
    obtain rfl | rfl := hi <;> exact .inr rfl
  | pwr q next _ hi =>
    right
    obtain ⟨q', e⟩ | e := fgPowerCycle_fg u next q s <;> rw [e] <;>
      obtain ⟨rfl | rfl, rfl⟩ | ⟨rfl, rfl⟩ := hi <;> rfl
  | acq a _ hi =>
    right
    obtain ⟨a', e⟩ | ⟨ch, e⟩ := fgAcquire_fg u a s <;> rw [e] <;> obtain rfl | rfl := hi <;> rfl
  | acqExit r _ hi =>
    obtain rfl | ⟨rfl, hr⟩ := hi
    · exact .inr rfl
    · obtain ⟨ch, rfl⟩ := Option.isSome_iff_exists.1 hr
      exact .inr rfl


/-- Before its checks a command stands at its first line. -/
theorem onProgram_start (i : Instr) : onProgram i .start = true := rfl

theorem onLine_of_decode {s : State} {i : Instr} (hd : decode s.cmd = .ok i) :
    s.onLine = onProgram i s.fg := by
  rw [State.onLine, hd]

/-- Off `IDLE` the foreground answers when its position is a line of the command in `CMD`. -/
theorem foreground_answers {s : State} (h : PositionOk s) : ∃ t, foreground s = .next t := by
  by_cases hf : s.fg = .idle
  · exact ⟨s, foreground_idle s hf⟩
  cases hd : decode s.cmd with
  | ok i =>
    rw [foreground_ok s i hf hd]
    obtain h | h | h := h
    · contradiction
    · exact exec_answers (h ▸ onProgram_start i)
    · exact exec_answers (onLine_of_decode hd ▸ h)
  | error e =>
    obtain h | h | h := h
    · contradiction
    · exact ⟨_, foreground_error s e h hd⟩
    · rw [State.onLine, hd] at h; cases h

theorem sequencer_answers {s : State} (h : PositionOk s) : ∃ t, sequencer s = .next t := by
  rcases sequencer_cases s with ⟨p, -, e⟩ | ⟨-, j, -, e⟩ | ⟨-, -, e⟩ <;> rw [e]
  · exact ⟨_, rfl⟩
  · exact ⟨_, rfl⟩
  · exact foreground_answers h

/-- From a position the spec gives a meaning to, the machine goes on (rule R104). -/
theorem step_answers {s : State} (h : PositionOk s) : Safe s := by
  show ∃ t, perform s.nextEvent s.popEvent = .next t
  cases s.nextEvent with
  | seq => exact sequencer_answers (s := s.popEvent) h
  | hostRead _ _ | hostWrite _ _ _ | dout _ _ | powerOn => exact ⟨_, rfl⟩

/-- A position stays one while neither it nor `CMD` changes. -/
theorem PositionOk.same {s t : State} (h : PositionOk s) (hf : t.fg = s.fg) (hc : t.cmd = s.cmd) :
    PositionOk t := by
  unfold PositionOk State.onLine
  rw [hf, hc]
  exact h

/-- What every line of every command leaves alone, from its shape (rule R116). -/
theorem CommandLine.frame {i : Instr} {u : UnitId} {s t : State} (h : CommandLine i u s t) :
    CommandFrame s t := by
  cases h with
  | pwr q next => exact (fgPowerCycle_frame u next q s).1
  | acq a => exact (fgAcquire_frame u a s).1
  | _ => exact ⟨rfl, rfl, rfl, rfl, rfl, rfl, rfl⟩

/-- Every move keeps the position a line of the command in `CMD`, or idle (rule R17). -/
theorem Move.position {s t : State} (hm : Move s t) (h : PositionOk s) : PositionOk t := by
  cases hm with
  | outside | drive | exit | enter => exact h.same rfl rfl
  | accept => exact .inr (.inl rfl)
  | powerOn | illegal => exact .inl rfl
  | dispatch p a => exact h.same (irqStep_frame p s).fg (irqStep_frame p s).cmd
  | command i _ _ _ hd _ hl =>
    obtain hf | hf := hl.onProgram
    · exact .inl hf
    · exact .inr (.inr (by rw [onLine_of_decode (hl.frame.cmd ▸ hd), hf]))

/-- Settles O26: `exec_answers` gives the next state, `CommandLine.onProgram` its line. -/
theorem everyLineAnswersNext : Obligations.EveryLineAnswersNext := by
  intro i s h
  obtain ⟨t, ht⟩ := exec_answers h
  exact ⟨t, ht, (exec_line i s t ht).onProgram⟩

/-- Settles O51: the position decides that a step answers, and every move keeps it. -/
theorem stepKeepsPosition : Obligations.StepKeepsPosition := by
  intro s h
  obtain ⟨t, ht⟩ := step_answers h
  exact ⟨t, ht, (step_move ht).position h⟩

end Sys2Proof.Machine
end

section
/-! PROOFS. The mask (rules R16, R106, R113), the status fields (rules R20, R101) and the end of a command
(rules R21, R43). -/

namespace Sys2Proof.Machine

/-! ### The mask (rules R16, R106, R113) -/

/-- In the foreground a line leaves `IM` 1 exactly when it leaves FG off its preemption points. -/
theorem CommandLine.mask {i : Instr} {u : UnitId} {s t : State} (h : CommandLine i u s t)
    (him : s.im = !s.fg.preemptible) : t.im = !t.fg.preemptible := by
  cases h with
  | pwr q next hp hi =>
    rw [hp] at him
    have hm : (fgPowerCycle u next q s).im = s.im := by
      rw [fgPowerCycle_eq]; exact (pwrStep_frame u q s).im
    rw [hm, him]
    obtain ⟨q', e⟩ | e := fgPowerCycle_fg u next q s <;> rw [e]
    · rfl
    · obtain ⟨-, rfl⟩ | ⟨-, rfl⟩ := hi <;> rfl
  | acq a hp =>
    rw [hp] at him
    have hm : (fgAcquire u a s).im = s.im := by
      rw [fgAcquire_eq]; exact (acqStep_frame u a s).im
    rw [hm, him]
    obtain ⟨a', e⟩ | ⟨ch, e⟩ := fgAcquire_fg u a s <;> rw [e] <;> rfl
  | detachBusy hp | detachReady hp =>
    obtain ⟨hp | hp, -⟩ | hp := hp <;> rw [hp] at him <;> exact him
  | resetDetached hp => obtain hp | hp := hp <;> rw [hp] at him <;> exact him
  | deregEnter | deregExit | pwrEnter | pwrExit | pollEnter | nbreadStart | acqExit | iattStart
  | attachExit => rfl
  | fail _ hp | answer _ hp | setEnB _ hp | setGain _ hp | initPins hp | deregSlot hp | deregClear _ hp
  | clearedDone hp | clearedReset hp | defaults hp | readStart hp | pollBusy hp | pollReady hp
  | acqDone _ hp | pollAgain hp | armFail hp | arm _ hp | attachNext hp | attachDone _ hp =>
    rw [hp] at him; exact him

theorem Move.mask {s t : State} (hm : Move s t) (h : MaskOk s) : MaskOk t := by
  obtain ⟨him, hirq⟩ := h
  cases hm with
  | outside | drive => exact ⟨him, hirq⟩
  | accept w r hp => rw [hp] at him; exact ⟨him, fun _ => rfl⟩
  | powerOn => exact ⟨rfl, fun h => nomatch h⟩
  | dispatch p a hp hl =>
    have f := acqStep_frame p.unit a s
    rw [irqStep_acq p a s hl]
    refine ⟨?_, fun _ => ?_⟩
    · rw [hp] at him; exact f.im.trans him
    · show (acqStep p.unit a s).2.fg.preemptible = true
      rw [f.fg]; exact hirq (by rw [hp]; rfl)
  | exit p hp =>
    refine ⟨?_, fun h => nomatch h⟩
    show false = !s.fg.preemptible
    rw [hirq (by rw [hp]; rfl)]; rfl
  | enter j hr =>
    obtain ⟨-, -, hpre, -⟩ := (irqReady_eq_some s j).1 hr
    exact ⟨rfl, fun _ => hpre⟩
  | illegal e hn hp =>
    rw [hn, hp] at him
    refine ⟨him.trans (by rw [State.raise_irq, hn]; rfl), fun _ => rfl⟩
  | command i _ hn _ _ _ hl =>
    rw [hn] at him
    refine ⟨?_, fun h => ?_⟩
    · rw [hl.frame.irq, hn]; exact hl.mask him
    · rw [hl.frame.irq, hn] at h; cases h

/-- Settles O52: every move keeps `MaskOk`. -/
theorem stepKeepsMask : Obligations.StepKeepsMask :=
  fun _ _ h hst => (step_move hst).mask h

/-! ### The status fields (rules R20, R101) -/

theorem raise_status (s : State) (e : CmdError) : StatusOk (s.raise e) :=
  ⟨fun _ => rfl, fun _ => rfl, (nomatch ·), fun _ => errorCode_range e⟩

/-- A busy command has neither `DONE` nor an error, so any end of its microstep keeps the fields. -/
theorem EndOf.status {s t : State} (h : StatusOk s) (hf : s.fg ≠ .idle) (he : EndOf s t) :
    StatusOk t := by
  obtain ⟨hidle, hdone, hno, -⟩ := h
  have hd : s.done = false := by simpa using mt hidle hf
  have herr : s.err = false := by simpa [hd] using mt hdone
  have hcode := hno herr
  rcases he with ⟨-, e, rfl⟩ | ⟨hi, hd', he', hc'⟩ | ⟨-, -, hd', he', hc'⟩
  · exact raise_status s e
  · simp [StatusOk, hi, hd', he', hc', herr, hcode]
  · simp [StatusOk, hd', he', hc', hd, herr, hcode]

theorem Move.status {s t : State} (hm : Move s t) (h : StatusOk s) : StatusOk t := by
  cases hm with
  | outside | drive | exit | enter => exact h
  | accept => exact ⟨(nomatch ·), (nomatch ·), fun _ => rfl, (nomatch ·)⟩
  | powerOn => exact ⟨(nomatch ·), (nomatch ·), fun _ => rfl, (nomatch ·)⟩
  | dispatch p a =>
    have f := irqStep_frame p s
    unfold StatusOk
    rw [f.done, f.fg, f.err, f.ecode]
    exact h
  | illegal e => exact raise_status s e
  | command i _ _ hf _ he => exact (exec_end i s t he).status h hf

/-- Settles O58: every move keeps `StatusOk`. -/
theorem stepKeepsStatus : Obligations.StepKeepsStatus :=
  fun _ _ h hst => (step_move hst).status h

/-! ### The end of a command (rules R20, R21, R43) -/

/-- Between two steps `RESULT` changes, or `BUSY` falls, only by power-on or by a foreground microstep. -/
theorem foreground_of_change {s t : State} (h : step s = .next t)
    (hc : t.result ≠ s.result ∨ (s.fg ≠ .idle ∧ t.fg = .idle)) :
    s.nextEvent = .powerOn ∨
      (s.nextEvent = .seq ∧ s.irq = none ∧ s.fg ≠ .idle ∧ EndOf s.popEvent t) := by
  have same (r : State) (h1 : r.result = s.result) (h2 : r.fg = s.fg) :
      ¬ (r.result ≠ s.result ∨ (s.fg ≠ .idle ∧ r.fg = .idle)) := by
    rw [h1, h2]; tauto
  rcases step_next s t h with ⟨addr, n, -, rfl⟩ | ⟨addr, n, v, -, rfl⟩ | ⟨u, lvl, -, rfl⟩ |
    ⟨he, rfl⟩ | ⟨-, p, -, rfl⟩ | ⟨-, -, j, -, rfl⟩ | ⟨he, hn, -, hf⟩
  · obtain ⟨r, e⟩ := hostRead_eq s.popEvent addr n
    rw [e] at hc; exact absurd hc (same _ rfl rfl)
  · obtain ⟨r, e | ⟨hp, e⟩ | ⟨o, e⟩⟩ := hostWrite_cases s.popEvent addr n v <;> rw [e] at hc
    · exact absurd hc (same _ rfl rfl)
    · obtain hc | ⟨hb, -⟩ := hc
      · exact absurd rfl hc
      · exact absurd hp hb
    · exact absurd hc (same _ rfl rfl)
  · obtain ⟨d, sl, e⟩ := drive_cases s.popEvent u lvl
    rw [e] at hc; exact absurd hc (same _ rfl rfl)
  · exact .inl he
  · have f := irqStep_frame p s.popEvent
    exact absurd hc (same _ f.result f.fg)
  · exact absurd hc (same _ rfl rfl)
  · rcases foreground_next s.popEvent t hf with ⟨-, rfl⟩ | ⟨hb, i, -, hx⟩ | ⟨hp, e, -, rfl⟩
    · exact absurd hc (same _ rfl rfl)
    · exact .inr ⟨he, hn, hb, exec_end i _ t hx⟩
    · exact .inr ⟨he, hn, by rw [State.popEvent_fg] at hp; simp [hp], .inl ⟨hp, e, rfl⟩⟩

/-- Settles O46: of the ends of a microstep only a completion writes `RESULT`. -/
theorem resultWrittenOnlyAtCompletion : Obligations.ResultWrittenOnlyAtCompletion := by
  intro s t h hr
  refine (foreground_of_change h (.inl hr)).imp_right fun ⟨he, hn, hb, hend⟩ => ?_
  rcases hend with ⟨-, e, rfl⟩ | ⟨hi, hd, herr, -⟩ | ⟨-, hres, -⟩
  · exact absurd rfl hr
  · exact ⟨he, hn, hb, hi, hd, herr⟩
  · exact absurd hres hr

/-- Settles O47: an error and a completion are the ends that reach `IDLE`, both with `DONE`. -/
theorem busyEndsWithDone : Obligations.BusyEndsWithDone := by
  intro s t h hb hi
  refine (foreground_of_change h (.inr ⟨hb, hi⟩)).imp_right fun ⟨he, hn, _, hend⟩ => ⟨he, hn, ?_⟩
  rcases hend with ⟨-, e, rfl⟩ | ⟨-, hd, -⟩ | ⟨hni, -⟩
  · rfl
  · exact hd
  · exact absurd hi hni

end Sys2Proof.Machine
end

section
/-! PROOFS. The words the host reads, bit by bit: `STATUS`, `OCC`, `SLOTMAP` and `CAP` (rules R20 to R24). -/

namespace Sys2Proof

/-- Bit n of the low 32 bits of a narrower field placed at position k. -/
theorem shifted_field_getLsbD {w : Nat} (x : BitVec w) (k n : Nat) :
    (x.setWidth 32 <<< k).getLsbD n = (decide (n < 32) && decide (k ≤ n) && x.getLsbD (n - k)) := by
  by_cases h1 : n < 32 <;> by_cases h2 : k ≤ n
  · have : n - k < 32 := by omega
    simp [h1, h2, BitVec.getLsbD_shiftLeft, BitVec.getLsbD_setWidth, this, -BitVec.getLsbD_eq_getElem]
  · have : n < k := by omega
    simp [h1, h2, this, BitVec.getLsbD_shiftLeft, -BitVec.getLsbD_eq_getElem]
  · simp [h1]
  · simp [h1]

end Sys2Proof

namespace Sys2Proof.Machine

/-! ### The parameters -/

theorem Move.params {s t : State} (hm : Move s t) : t.params = s.params := by
  cases hm with
  | dispatch p a => exact (irqStep_frame p s).params
  | command _ _ _ _ _ _ hl => exact hl.frame.params
  | _ => rfl

/-! ### `STATUS` -/

theorem status_getLsbD (s : State) (n : Nat) : s.status.getLsbD n =
    ((decide (n = 0) && s.busy) || (decide (n = 1) && s.done) || (decide (n = 2) && s.err) ||
    (decide (n = 3) && s.ovr) || (decide (n = 4) && s.im) || (decide (n = 5) && s.irq.isSome) ||
    (decide (8 ≤ n) && s.ecode.getLsbD (n - 8))) := by
  simp only [State.status, BitVec.getLsbD_or, bitAt_getLsbD, shifted_field_getLsbD]
  by_cases h : n < 32
  · simp [h]
  · have : 4 ≤ n - 8 := by omega
    simp [h, this]
    omega

/-- Settles O44: each field from the bits of the word. -/
theorem statusFields : Obligations.StatusFields := by
  intro s
  have hcode : s.status.extractLsb' 8 4 = s.ecode := by
    refine BitVec.eq_of_getLsbD_eq fun j hj => ?_
    rw [BitVec.getLsbD_extractLsb', status_getLsbD]
    interval_cases j <;> simp
  have hhigh (n : Nat) (hn : 12 ≤ n) : s.status.getLsbD n = false := by
    rw [status_getLsbD, BitVec.getLsbD_of_ge s.ecode _ (by omega)]
    simp
    omega
  refine ⟨?_, ?_, ?_, ?_, ?_, ?_, ?_, ?_, hcode, hhigh⟩ <;> rw [status_getLsbD] <;> simp [State.busy]

/-! ### `OCC`, `SLOTMAP` and `CAP` -/

theorem occWord_getLsbD (s : State) (n : Nat) : s.occWord.getLsbD n =
    ((decide (n = 0) && (s.slots.look 0).occ) || (decide (n = 1) && (s.slots.look 1).occ) ||
    (decide (n = 2) && (s.slots.look 2).occ) || (decide (n = 3) && (s.slots.look 3).occ) ||
    (decide (n = 4) && (s.slots.look 0).pend) || (decide (n = 5) && (s.slots.look 1).pend) ||
    (decide (n = 6) && (s.slots.look 2).pend) || (decide (n = 7) && (s.slots.look 3).pend)) := by
  simp only [State.occWord, BitVec.getLsbD_or, bitAt_getLsbD]
  by_cases h : n < 32
  · simp [h]
  · simp [h]; omega

theorem occWord_slot (s : State) (i : SlotId) :
    s.occWord.getLsbD i.val = (s.slots.look i).occ ∧
      s.occWord.getLsbD (4 + i.val) = (s.slots.look i).pend := by
  rw [occWord_getLsbD, occWord_getLsbD]
  fin_cases i <;> simp

theorem occWord_high (s : State) (n : Nat) (hn : 8 ≤ n) : s.occWord.getLsbD n = false := by
  rw [occWord_getLsbD]
  simp
  omega

/-- Bit m of the four-bit field of a slot's unit, wherever it stands, is 0 outside the field. -/
theorem unit_testBit (u : UnitId) {m : Nat} (hm : 4 ≤ m) : u.val.testBit m = false :=
  testBit_of_lt (k := 4) u.isLt hm

theorem slotmapWord_getLsbD (s : State) (n : Nat) (h : n < 32) : s.slotmapWord.getLsbD n =
    ((s.slots.look 0).unit.val.testBit n ||
    (decide (4 ≤ n) && (s.slots.look 1).unit.val.testBit (n - 4)) ||
    (decide (8 ≤ n) && (s.slots.look 2).unit.val.testBit (n - 8)) ||
    (decide (12 ≤ n) && (s.slots.look 3).unit.val.testBit (n - 12))) := by
  simp only [State.slotmapWord, BitVec.getLsbD_or, field_getLsbD, BitVec.getLsbD_ofNat, h,
    decide_true, Bool.true_and]

theorem slotmapWord_slot (s : State) (i : SlotId) :
    (s.slotmapWord.extractLsb' (4 * i.val) 4).toNat = (s.slots.look i).unit.val := by
  have hu : (s.slots.look i).unit.val < 2 ^ 4 := (s.slots.look i).unit.isLt
  suffices h : s.slotmapWord.extractLsb' (4 * i.val) 4 = BitVec.ofNat 4 (s.slots.look i).unit.val by
    rw [h, BitVec.toNat_ofNat, Nat.mod_eq_of_lt hu]
  refine BitVec.eq_of_getLsbD_eq fun j hj => ?_
  have hi := i.isLt
  rw [BitVec.getLsbD_extractLsb', slotmapWord_getLsbD s _ (by omega), BitVec.getLsbD_ofNat]
  have hf (k : SlotId) {m : Nat} (hm : 4 ≤ m) := unit_testBit (s.slots.look k).unit hm
  fin_cases i <;> interval_cases j <;> simp [hf]

theorem slotmapWord_high (s : State) (n : Nat) (hn : 16 ≤ n) : s.slotmapWord.getLsbD n = false := by
  by_cases h : n < 32
  · rw [slotmapWord_getLsbD s n h, unit_testBit _ (by omega), unit_testBit _ (by omega),
      unit_testBit _ (by omega), unit_testBit _ (by omega)]
    simp
  · exact BitVec.getLsbD_of_ge _ _ (by omega)

theorem capWord_getLsbD (s : State) (n : Nat) : s.capWord.getLsbD n =
    ((decide (n < 5) && s.params.nunits.testBit n) || decide (n = 10) ||
    (decide (16 ≤ n) && (capableBits s.params).getLsbD (n - 16))) := by
  have h4 (m : Nat) : (4).testBit m = decide (m = 2) := by
    rw [show (4 : Nat) = 2 ^ 2 from rfl, Nat.testBit_two_pow]; simp [eq_comm]
  simp only [State.capWord, BitVec.getLsbD_or, field_getLsbD, shifted_field_getLsbD,
    BitVec.getLsbD_setWidth, BitVec.getLsbD_ofNat, h4, nslots]
  by_cases h : n < 32
  · have h10 : (decide (8 ≤ n) && decide (n - 8 = 2)) = decide (n = 10) := by
      rw [← Bool.decide_and]; exact decide_eq_decide.2 (by omega)
    simp [h, h10]
  · rw [BitVec.getLsbD_of_ge (capableBits s.params) (n - 16) (by omega)]
    simp [h, show ¬ n < 5 by omega, show n ≠ 10 by omega]

theorem capableBits_getLsbD (p : Params) (u : UnitId) :
    (capableBits p).getLsbD u.val = (decide (u.val < p.nunits) && p.irqCapable.getLsbD u.val) := by
  rw [capableBits, BitVec.getLsbD_and, BitVec.getLsbD_ofNat, Nat.testBit_two_pow_sub_one, Bool.and_comm]
  simp [u.isLt]

theorem capWord_fields (s : State) (h : s.params.wf) :
    (s.capWord.extractLsb' 0 5).toNat = s.params.nunits ∧
      (s.capWord.extractLsb' 8 3).toNat = 4 ∧
      (∀ u : UnitId, s.capWord.getLsbD (16 + u.val) =
        (decide (u.val < s.params.nunits) && s.params.irqCapable.getLsbD u.val)) ∧
      ∀ n, (5 ≤ n ∧ n < 8) ∨ (11 ≤ n ∧ n < 16) → s.capWord.getLsbD n = false := by
  obtain ⟨-, hn, -⟩ := h
  have hunits : s.capWord.extractLsb' 0 5 = BitVec.ofNat 5 s.params.nunits := by
    refine BitVec.eq_of_getLsbD_eq fun j hj => ?_
    rw [BitVec.getLsbD_extractLsb', capWord_getLsbD, BitVec.getLsbD_ofNat]
    interval_cases j <;> simp
  have hslots : s.capWord.extractLsb' 8 3 = 4 := by
    refine BitVec.eq_of_getLsbD_eq fun j hj => ?_
    rw [BitVec.getLsbD_extractLsb', capWord_getLsbD]
    interval_cases j <;> simp
  refine ⟨?_, by rw [hslots]; rfl, fun u => ?_, fun n hn => ?_⟩
  · rw [hunits, BitVec.toNat_ofNat, Nat.mod_eq_of_lt (by omega)]
  · rw [capWord_getLsbD, ← capableBits_getLsbD, show 16 + u.val - 16 = u.val by omega]
    simp
    omega
  · rw [capWord_getLsbD]
    simp
    omega

/-- `CAP` shows only parameters, which no move writes (rule R24). -/
theorem Move.capWord {s t : State} (hm : Move s t) : t.capWord = s.capWord := by
  rw [State.capWord, hm.params]; rfl

/-- Settles O45: the three words bit by bit, and `Move.capWord`. -/
theorem registryRegistersR22R23R24 : Obligations.RegistryRegistersR22R23R24 := by
  refine ⟨fun s => ⟨fun i => ?_, occWord_high s, slotmapWord_high s, capWord_fields s⟩, by decide,
    by decide, fun s t h => (step_move h).capWord⟩
  obtain ⟨ho, hp⟩ := occWord_slot s i
  exact ⟨ho, hp, slotmapWord_slot s i⟩

end Sys2Proof.Machine
end

section
/-! PROOFS. Running the command in `CMD`, and the host's accesses to the register window. -/

namespace Sys2Proof.Machine

/-! ### A step runs the decoded command -/

/-- Settles O6: `foreground_ok` on the state without its event. -/
theorem stepRunsDecodedCommand : Obligations.StepRunsDecodedCommand := by
  intro s i ⟨he, hn, hr⟩ hf hd
  rw [step_foreground s he hn hr]
  exact foreground_ok s.popEvent i hf hd

/-- The decoder inverts the encoder (rules R53 to R55). -/
theorem decode_encode (i : Instr) : decode (encode i) = .ok i := by
  cases i with
  | nop => rfl
  | enb u b => revert u b; decide
  | gain u g => cases g <;> revert u <;> decide
  | graw u ch => cases ch <;> revert u <;> decide
  | init u | reset u | rdy u | read u | nbread u | iatt u | idet u | isim u | gcnt u | gstate u =>
    revert u; decide

/-- A word of 32 bits is loaded as it is, and the interleaving gives the sequencer the next move. -/
theorem withFetchWord_word (s : State) (w : Word) : s.withFetchWord 32 w.toNat = s.loadWord w := by
  rw [State.withFetchWord, Nat.mod_eq_of_lt w.isLt, BitVec.ofNat_toNat, BitVec.setWidth_eq]

/-- Nothing is pending in the state a word is loaded into, so no dispatch comes first. -/
theorem loadWord_irqReady (s : State) (w : Word) : (s.loadWord w).irqReady = none :=
  irqReady_none_of_no_pend _ fun i => by rw [State.loadWord, mapSlots_get]

/-- Settles O7: the loaded word is accepted, unmasked and free of pending dispatches, so `exec` runs it. -/
theorem loadedWordRunsNext : Obligations.LoadedWordRunsNext := by
  intro s i
  rw [withFetchWord_word, step_foreground _ rfl rfl (loadWord_irqReady s _)]
  exact foreground_ok _ i (by simp [State.loadWord]) (decode_encode i)

/-! ### Host accesses -/

/-- A step performs the head of the interleaving on the state that has the rest. -/
theorem step_cons {s : State} {e : Event} {rest : List Event} (h : s.sched = e :: rest) :
    step s = perform e { s with sched := rest } := by
  rw [step, State.nextEvent, State.popEvent, h]
  rfl

theorem inWindow_iff (base addr : Nat) :
    inWindow base addr = true ↔ base ≤ addr ∧ addr < base + 64 := by
  simp [inWindow]

/-- The six registers' offsets (rule R18). -/
abbrev RegisterOffset (off : Nat) : Prop := off % 4 = 0 ∧ off ≤ 0x14

theorem reachesRegister_iff (off n : Nat) :
    reachesRegister off n = true ↔ n = 4 ∧ RegisterOffset off := by
  simp [reachesRegister, and_assoc]

/-- A read of a register answers its value (rules R18, R38). -/
theorem hostRead_register (s : State) {off : Nat} (h : RegisterOffset off) :
    s.hostRead (s.params.base + off) 4 =
      { s with resp := some { error := false, data := s.readReg off } } := by
  rw [State.hostRead, if_pos ((inWindow_iff _ _).2 (by omega)), Nat.add_sub_cancel_left,
    if_pos ((reachesRegister_iff _ _).2 ⟨rfl, h⟩)]

/-- A write to a register is answered without an error (rules R18, R38). -/
theorem hostWrite_register (s : State) {off : Nat} (v : Word) (h : RegisterOffset off) :
    s.hostWrite (s.params.base + off) 4 v =
      { s.writeReg off v with resp := some { error := false, data := 0 } } := by
  rw [State.hostWrite, if_pos ((inWindow_iff _ _).2 (by omega)), Nat.add_sub_cancel_left,
    if_pos ((reachesRegister_iff _ _).2 ⟨rfl, h⟩)]

/-- An access that starts outside the window does not reach the block (rule R37). -/
theorem perform_outside {s : State} {addr n : Nat} {v : Word} {e : Event}
    (he : e = .hostRead addr n ∨ e = .hostWrite addr n v)
    (h : ¬ (s.params.base ≤ addr ∧ addr < s.params.base + 64)) : perform e s = .next s := by
  have hw : ¬ inWindow s.params.base addr = true := mt (inWindow_iff _ _).1 h
  obtain rfl | rfl := he
  · rw [perform, State.hostRead, if_neg hw]
  · rw [perform, State.hostWrite, if_neg hw]

/-- An access that starts inside the window and reaches no register is a bus error (rule R36). -/
theorem perform_busError {s : State} {addr n : Nat} {v : Word} {e : Event}
    (he : e = .hostRead addr n ∨ e = .hostWrite addr n v)
    (h : s.params.base ≤ addr ∧ addr < s.params.base + 64)
    (hr : ¬ (n = 4 ∧ RegisterOffset (addr - s.params.base))) :
    perform e s = .next { s with resp := some { error := true, data := 0 } } := by
  have hw := (inWindow_iff _ _).2 h
  have hn := mt (reachesRegister_iff _ _).1 hr
  obtain rfl | rfl := he
  · rw [perform, State.hostRead, if_pos hw, if_neg hn]
  · rw [perform, State.hostWrite, if_pos hw, if_neg hn]

theorem writeCmd_idle (s : State) (v : Word) (h : s.fg = .idle) : s.writeCmd v = s.accept v := by
  simp [State.writeCmd, State.busy, h]

theorem writeCmd_busy (s : State) (v : Word) (h : s.fg ≠ .idle) :
    s.writeCmd v = { s with ovr := true } := by
  simp [State.writeCmd, State.busy, h]

theorem writeStatus_eq (s : State) (v : Word) :
    s.writeStatus v = { s with ovr := if v.getLsbD 3 = true then false else s.ovr } := by
  unfold State.writeStatus
  split <;> rfl

/-- Settles O41: the two forms of a write to `CMD`, and its read. -/
theorem cmdRegisterR19 : Obligations.CmdRegisterR19 := by
  refine ⟨fun s v rest h => ?_, fun s rest h => ?_, rfl⟩
  · have hw : step s = .next { ({ s with sched := rest } : State).writeCmd v with
        resp := some { error := false, data := 0 } } := by
      rw [step_cons h]
      exact congrArg _ (hostWrite_register { s with sched := rest } (off := 0) v ⟨rfl, by decide⟩)
    refine ⟨fun hf => ⟨0, ?_⟩, fun hf => ⟨0, ?_⟩⟩
    · rw [hw, writeCmd_idle { s with sched := rest } v hf]; rfl
    · rw [hw, writeCmd_busy { s with sched := rest } v hf]
  · rw [step_cons h]
    exact congrArg _ (hostRead_register { s with sched := rest } (off := 0) ⟨rfl, by decide⟩)

/-- Settles O43: the register rules above, and the two accesses that straddle an end of the window. -/
theorem registerAccesses : Obligations.RegisterAccesses := by
  intro s rest v
  refine ⟨fun off ho h => ?_, fun h => ⟨0, ?_⟩, fun off ho h => ⟨0, ?_⟩, fun addr n e he h =>
    ⟨fun hlow _ => ?_, fun hlo hhi hend => ⟨0, ?_, fun _ => rfl⟩⟩⟩
  · rw [step_cons h]
    have hr : RegisterOffset off := by fin_cases ho <;> decide
    rw [perform]
    refine congrArg _ ((hostRead_register { s with sched := rest } hr).trans ?_)
    fin_cases ho <;> rfl
  · rw [step_cons h, perform]
    refine congrArg _ ((hostWrite_register { s with sched := rest } (off := 4) v (by decide)).trans ?_)
    rw [State.writeReg, writeStatus_eq]
  · rw [step_cons h, perform]
    have hr : RegisterOffset off := by fin_cases ho <;> decide
    refine congrArg _ ((hostWrite_register { s with sched := rest } v hr).trans ?_)
    fin_cases ho <;> rfl
  · rw [step_cons h]
    exact perform_outside (s := { s with sched := rest }) he (by simp; omega)
  · rw [step_cons h]
    exact perform_busError (s := { s with sched := rest }) he ⟨hlo, hhi⟩ (by simp; omega)

end Sys2Proof.Machine
end

section
/-! PROOFS. Every reading lies in the 24-bit range (rule R27). -/

namespace Sys2Proof.Machine

/-! ### Readings (rule R27) -/

/-- A word in the 24-bit range has bits 31:23 all equal (rule R27). -/
theorem inRange24_bits {w : Word} (h : InRange24 w) {n : Nat} (hn : 23 ≤ n) (hn' : n ≤ 31) :
    w.getLsbD n = w.msb := by
  obtain ⟨hlo, hhi⟩ := h
  have hw := w.isLt
  cases hm : w.msb
  · have hx : w.toNat < 2 ^ 23 := by
      rw [BitVec.toInt_eq_msb_cond, hm] at hhi
      simp at hhi
      omega
    exact testBit_of_lt hx hn
  · have hx : (~~~w).toNat < 2 ^ 23 := by
      rw [BitVec.toInt_eq_msb_cond, hm] at hlo
      rw [BitVec.toNat_not]
      simp at hlo
      omega
    have hb : (~~~w).getLsbD n = false := testBit_of_lt hx hn
    rw [BitVec.getLsbD_not] at hb
    simpa [show n < 32 by omega] using hb

/-- `sext32` is the sign extension (rule R87). -/
theorem sext32_eq_signExtend (v : BitVec 24) : sext32 v = v.signExtend 32 := by
  refine BitVec.eq_of_getLsbD_eq fun i hi => ?_
  have hmask : ∀ i < 32, (0xFF000000#32).getLsbD i = decide (24 ≤ i) := by decide
  rw [BitVec.getLsbD_signExtend, BitVec.msb_eq_getLsbD_last, sext32]
  by_cases h24 : i < 24
  · cases v.getLsbD 23 <;>
      simp [BitVec.getLsbD_or, BitVec.getLsbD_setWidth, hmask i hi, hi, h24, -BitVec.getLsbD_eq_getElem]
  · cases v.getLsbD 23 <;>
      simp [BitVec.getLsbD_or, BitVec.getLsbD_setWidth, hmask i hi, hi, h24, not_lt.1 h24,
        -BitVec.getLsbD_eq_getElem]

theorem sext32_inRange24 (v : BitVec 24) : InRange24 (sext32 v) := by
  rw [InRange24, sext32_eq_signExtend, BitVec.toInt_signExtend_of_le (by decide)]
  have hlo := BitVec.le_toInt v
  have hhi := BitVec.toInt_lt (x := v)
  norm_num at hlo hhi ⊢
  omega

/-- Both readings of a bank lie in the 24-bit range. -/
abbrev UnitBank.RawInRange (b : UnitBank) : Prop := InRange24 b.rawA ∧ InRange24 b.rawB

theorem RawOk.modUnit {s : State} {u : UnitId} {f : UnitBank → UnitBank} (h : RawOk s)
    (hf : (s.units.look u).RawInRange → (f (s.units.look u)).RawInRange) : RawOk (s.modUnit u f) := by
  intro v
  rw [modUnit_get]
  split
  · exact hf (h u)
  · exact h v

theorem commit_rawInRange {b : UnitBank} (f : Frame) (v : BitVec 24) (h : b.RawInRange) :
    (b.commit f v).RawInRange := by
  obtain ⟨ch, nA, k⟩ := f
  cases ch
  · exact ⟨sext32_inRange24 v, h.2⟩
  · exact ⟨h.1, sext32_inRange24 v⟩

theorem acqStep_raw (u : UnitId) (a : Acq) {s : State} (h : RawOk s) : RawOk (acqStep u a s).2 := by
  cases a with
  | enter | release => exact RawOk.modUnit (f := ({ · with inH := _ })) h id
  | commit f v => exact h.modUnit (commit_rawInRange f v)
  | exch f x =>
    rw [acqStep_exch]
    intro v
    show (((exchStep u f.k x s).2).units.look v).RawInRange
    rw [exchStep_units]
    exact h v
  | select | ret => exact h

theorem CommandLine.raw {i : Instr} {u : UnitId} {s t : State} (hl : CommandLine i u s t)
    (h : RawOk s) : RawOk t := by
  cases hl with
  | setEnB => exact RawOk.modUnit (f := ({ · with enB := _ })) h id
  | setGain => exact RawOk.modUnit (f := ({ · with gain := _ })) h id
  | initPins => exact RawOk.modUnit (s := s.driveLow u) (f := ({ · with cfg := true })) h id
  | clearedDone | clearedReset => exact RawOk.modUnit (f := ({ · with slotV := false, slot := 0 })) h id
  | arm j => exact RawOk.modUnit (f := ({ · with slotV := true, slot := j })) h id
  | attachNext => exact RawOk.modUnit (f := ({ · with nextA := true })) h id
  | defaults => exact h.modUnit fun _ => (by decide : InRange24 0 ∧ InRange24 0)
  | pwr q next =>
    intro v
    rw [fgPowerCycle_eq, State.goto_units, pwrStep_units]
    exact h v
  | acq a =>
    rw [fgAcquire_eq]
    exact acqStep_raw u a h
  | _ => exact h

theorem Move.raw {s t : State} (hm : Move s t) (h : RawOk s) : RawOk t := by
  cases hm with
  | powerOn => exact fun u => by rw [powerOnReset_unit]; decide
  | dispatch p a _ hl => rw [irqStep_acq p a s hl]; exact acqStep_raw p.unit a h
  | command _ _ _ _ _ _ hl => exact hl.raw h
  | _ => exact h

/-- Settles O56: `inRange24_bits`, and every move keeps `RawOk`. -/
theorem stepKeepsReadingsR27 : Obligations.StepKeepsReadingsR27 := by
  refine ⟨fun w h n hn hn' => ?_, by decide, fun s t h hst => (step_move hst).raw h⟩
  rw [inRange24_bits h hn hn', inRange24_bits h (n := 31) (by decide) (by decide)]

end Sys2Proof.Machine
end

section
/-! PROOFS. The registry invariants of rule R29, with what the lines of a command know of its unit. -/

namespace Sys2Proof.Machine

/-! ### The registry (rule R29) -/

/-- The registry invariants with what the lines of a command know of its unit. -/
abbrev RegistryOk (s : State) : Prop := RegistryR29 s ∧ RegistryLines s

/-- What line p of a command on unit u knows of the registry: the position-dependent part of
`RegistryLines`, line by line. -/
def LineKnows (s : State) (u : UnitId) : FgPos → Prop
  | .arm => u.val < s.params.nunits ∧ (s.units.look u).cfg = true
  | .detWait | .deregEnter | .deregSlot => (s.units.look u).slotV = true
  | .deregClear j => (s.units.look u).slotV = true ∧ j = (s.units.look u).slot
  | .deregExit | .clearSlot =>
      (s.units.look u).slotV = true ∧ (s.slots.look (s.units.look u).slot).occ = false
  | .pwrEnter | .pwrExit | .defaults => (s.units.look u).slotV = false
  | .pwr _ => opcOf s.cmd ≠ 0x08 → (s.units.look u).slotV = false
  | _ => True

theorem detaching_eq_some (s : State) (u : UnitId) :
    s.detaching = some u ↔ (s.fg = .deregExit ∨ s.fg = .clearSlot) ∧ unitOf s.cmd = u := by
  unfold State.detaching
  split <;> simp_all

theorem resetting_eq_some (s : State) (u : UnitId) :
    s.resetting = some u ↔ (s.fg = .pwrEnter ∨ s.fg = .pwrExit ∨ s.fg = .defaults ∨
      ((∃ q, s.fg = .pwr q) ∧ opcOf s.cmd ≠ 0x08)) ∧ unitOf s.cmd = u := by
  unfold State.resetting
  split <;> simp_all

theorem RegistryLines.knows {s : State} (h : RegistryLines s) :
    LineKnows s (unitOf s.cmd) s.fg := by
  have hdet := h.detach
  have hfreed := fun hd => h.freed (unitOf s.cmd) _ ((detaching_eq_some s _).2 ⟨hd, rfl⟩) rfl
  have hclear := fun hr => h.cleared (unitOf s.cmd) ((resetting_eq_some s _).2 ⟨hr, rfl⟩)
  cases hp : s.fg with
  | arm => exact h.arm hp
  | deregClear j => exact ⟨hdet (by rw [hp]; rfl), h.local_ j hp⟩
  | detWait | deregEnter | deregSlot => exact hdet (by rw [hp]; rfl)
  | deregExit => exact ⟨hdet (by rw [hp]; rfl), hfreed (.inl hp)⟩
  | clearSlot => exact ⟨hdet (by rw [hp]; rfl), hfreed (.inr hp)⟩
  | pwrEnter => exact hclear (.inl hp)
  | pwrExit => exact hclear (.inr (.inl hp))
  | defaults => exact hclear (.inr (.inr (.inl hp)))
  | pwr q => exact fun ho => hclear (.inr (.inr (.inr ⟨⟨q, hp⟩, ho⟩)))
  | _ => trivial

/-- A dispatch in progress is of an armed slot and of the unit recorded there (rules R110, R111). -/
abbrev Armed (slots : Vector Slot 4) (irq : Option IrqPos) : Prop :=
  ∀ p, irq = some p → (slots.look p.slot).occ = true ∧ (slots.look p.slot).unit = p.unit

theorem RegistryLines.of_knows {s : State}
    (hno : ∀ u : UnitId, (s.units.look u).slotV = false → (s.units.look u).slot = 0)
    (hatt : ∀ u : UnitId, (s.units.look u).slotV = true →
      u.val < s.params.nunits ∧ (s.units.look u).cfg = true)
    (hk : LineKnows s (unitOf s.cmd) s.fg)
    (hirq : Armed s.slots s.irq) : RegistryLines s where
  noSlot := hno
  attached := hatt
  arm hp := by rw [hp] at hk; exact hk
  detach hd := by
    cases hp : s.fg with
    | detWait | deregEnter | deregSlot => rw [hp] at hk; exact hk
    | deregClear _ | deregExit | clearSlot => rw [hp] at hk; exact hk.1
    | _ => rw [hp] at hd; cases hd
  local_ j hp := by rw [hp] at hk; exact hk.2
  freed u i hd hs := by
    obtain ⟨hp | hp, rfl⟩ := (detaching_eq_some s u).1 hd <;> rw [hp] at hk <;> exact hs ▸ hk.2
  cleared u hr := by
    obtain ⟨hp | hp | hp | ⟨⟨q, hp⟩, ho⟩, rfl⟩ := (resetting_eq_some s u).1 hr <;> rw [hp] at hk
    · exact hk
    · exact hk
    · exact hk
    · exact hk ho
  dispatch := hirq

/-- The registry and the attachment of every unit are as before, but for pending bits of occupied slots
and for units newly configured. -/
structure SameRegistry (s t : State) : Prop where
  params : t.params = s.params
  slots : Latched s.slots t.slots
  slotV : ∀ u : UnitId, (t.units.look u).slotV = (s.units.look u).slotV
  slot : ∀ u : UnitId, (t.units.look u).slot = (s.units.look u).slot
  cfg : ∀ u : UnitId, (s.units.look u).cfg = true → (t.units.look u).cfg = true

theorem Latched.refl (v : Vector Slot 4) : Latched v v := fun _ => ⟨rfl, rfl, .inl⟩

theorem SameRegistry.of_units {s t : State} (hparams : t.params = s.params)
    (hslots : t.slots = s.slots) (hunits : t.units = s.units) : SameRegistry s t :=
  ⟨hparams, hslots ▸ Latched.refl _, fun _ => by rw [hunits], fun _ => by rw [hunits],
    fun _ => by rw [hunits]; exact id⟩

/-- What an entry written shares with the entry it replaces, every entry of the table shares. -/
theorem look_put_congr {α β : Type} {n : Nat} (g : α → β) {v : Vector α n} {i : Fin n} {x : α}
    (h : g x = g (v.look i)) (j : Fin n) : g ((v.put i x).look j) = g (v.look j) := by
  rw [look_put]
  split
  · next hj => rw [h, hj]
  · rfl

/-- A write to one bank that leaves its attachment leaves the registry as it was. -/
theorem SameRegistry.of_put {s t : State} {u : UnitId} {b : UnitBank} (hparams : t.params = s.params)
    (hslots : t.slots = s.slots) (hunits : t.units = s.units.put u b)
    (hv : b.slotV = (s.units.look u).slotV) (hs : b.slot = (s.units.look u).slot)
    (hc : (s.units.look u).cfg = true → b.cfg = true) : SameRegistry s t where
  params := hparams
  slots := hslots ▸ Latched.refl _
  slotV := hunits ▸ look_put_congr UnitBank.slotV hv
  slot := hunits ▸ look_put_congr UnitBank.slot hs
  cfg v := by
    rw [hunits, look_put]
    split
    · next h => rw [h]; exact hc
    · exact id

theorem LineKnows.same {s t : State} {u : UnitId} {p : FgPos} (h : LineKnows s u p)
    (hs : SameRegistry s t) (hc : t.cmd = s.cmd) : LineKnows t u p := by
  unfold LineKnows at h ⊢
  split at h <;> simp only [hs.slotV, hs.slot, hs.params, hc, (hs.slots _).2.1]
  · exact h.imp_right (hs.cfg u)
  all_goals exact h

theorem RegistryR29.same {s t : State} (h : RegistryR29 s) (hs : SameRegistry s t)
    (hd : ∀ u, s.detaching = some u → t.detaching = some u) : RegistryR29 t where
  a i hp := by
    rw [(hs.slots i).2.1]
    exact ((hs.slots i).2.2 hp).elim (h.a i) id
  b i j := by
    rw [(hs.slots i).1, (hs.slots j).1, (hs.slots i).2.1, (hs.slots j).2.1]
    exact h.b i j
  c i u := by
    rw [(hs.slots i).1, (hs.slots i).2.1, hs.slotV, hs.slot]
    exact h.c i u
  d u i := by
    rw [(hs.slots i).1, (hs.slots i).2.1, hs.slotV, hs.slot]
    exact fun hv hn => h.d u i hv fun hw => hn (hd u hw)

/-- What leaves the registry keeps its invariants, when the line it leads to knows what it needs. -/
theorem RegistryOk.same {s t : State} (h : RegistryOk s) (hs : SameRegistry s t)
    (hd : ∀ u, s.detaching = some u → t.detaching = some u)
    (hk : LineKnows t (unitOf t.cmd) t.fg)
    (hirq : Armed s.slots t.irq) : RegistryOk t := by
  obtain ⟨h29, hl⟩ := h
  refine ⟨h29.same hs hd, .of_knows (fun u hv => ?_) (fun u hv => ?_) hk fun p hp => ?_⟩
  · rw [hs.slotV] at hv; rw [hs.slot]; exact hl.noSlot u hv
  · rw [hs.slotV] at hv; rw [hs.params]; exact (hl.attached u hv).imp_right (hs.cfg u)
  · rw [(hs.slots p.slot).1, (hs.slots p.slot).2.1]; exact hirq p hp

/-- The engine leaves the registry (rule R111). -/
theorem acqStep_sameRegistry (u : UnitId) (a : Acq) (s : State) :
    SameRegistry s (acqStep u a s).2 := by
  cases a with
  | enter | release => exact .of_put (u := u) rfl rfl rfl rfl rfl id
  | commit f v =>
    obtain ⟨ch, nA, k⟩ := f
    cases ch <;> exact .of_put (u := u) rfl rfl rfl rfl rfl id
  | exch f x =>
    have hf := exchStep_frame u f.k x s
    rw [acqStep_exch]
    exact .of_units hf.params hf.slots (exchStep_units u f.k x s)
  | select | ret => exact .of_units rfl rfl rfl

/-! ### The lines that write the registry -/

/-- The deregistration of unit u's slot opens the window of rule R29(d), for u alone. -/
theorem deregClear_registry {s : State} {j : SlotId} (h : RegistryOk s) (hp : s.fg = .deregClear j)
    (hn : s.irq = none) : RegistryOk ((s.deregister j).goto .deregExit) := by
  obtain ⟨h29, hl⟩ := h
  have hk := hl.knows
  rw [hp] at hk
  obtain ⟨hv, rfl⟩ := hk
  have hd (v : UnitId) : s.detaching ≠ some v := by simp [State.detaching, hp]
  obtain ⟨-, hu⟩ := h29.d _ _ hv (hd _) rfl
  refine ⟨⟨fun i => ?_, fun i k => ?_, fun i v => ?_, fun v i => ?_⟩,
    .of_knows hl.noSlot hl.attached ⟨hv, ?_⟩ fun p hq => ?_⟩
  · simp only [State.goto_slots, State.deregister_slots, look_put]
    split
    · exact id
    · exact h29.a i
  · simp only [State.goto_slots, State.deregister_slots, look_put]
    split
    · intro h; cases h
    · split
      · intro _ h; cases h
      · exact h29.b i k
  · simp only [State.goto_slots, State.deregister_slots, look_put]
    split
    · intro h; cases h
    · exact h29.c i v
  · simp only [State.goto_slots, State.deregister_slots, look_put]
    intro hvv hdv hs
    obtain ⟨hocc, hunit⟩ := h29.d v i hvv (hd v) hs
    rw [if_neg]
    · exact ⟨hocc, hunit⟩
    · rintro rfl
      exact hdv ((detaching_eq_some _ v).2 ⟨.inl rfl, hu.symm.trans hunit⟩)
  · simp
  · rw [State.goto_irq, State.deregister_irq, hn] at hq; cases hq

/-- The arming of a free slot for a unit that is not attached (rule R93). -/
theorem arm_registry {s : State} {j : SlotId} (h : RegistryOk s) (hp : s.fg = .arm)
    (hj : attachSlot (unitOf s.cmd) s = some j) (hn : s.irq = none) (ho : opcOf s.cmd = 0x08) :
    RegistryOk ((s.arm (unitOf s.cmd) j).goto (.pwr .engOn)) := by
  obtain ⟨h29, hl⟩ := h
  have hk := hl.knows
  rw [hp] at hk
  obtain ⟨hv, -, hfree, -⟩ := (attachSlot_eq_some _ s j).1 hj
  have hd (v : UnitId) : s.detaching ≠ some v := by simp [State.detaching, hp]
  have hother (i : SlotId) (hi : (s.slots.look i).occ = true) :
      (s.slots.look i).unit ≠ unitOf s.cmd := fun hu => by simp [(h29.c i _ hi hu).1] at hv
  refine ⟨⟨fun i => ?_, fun i k => ?_, fun i v => ?_, fun v i => ?_⟩,
    .of_knows (fun v => ?_) (fun v => ?_) (fun hne => absurd ho hne) fun p hq => ?_⟩
  · simp only [State.goto_slots, State.arm_slots, look_put]
    split
    · exact fun _ => rfl
    · exact h29.a i
  · simp only [State.goto_slots, State.arm_slots, look_put]
    split <;> split
    · next hi hk => exact fun _ _ hne => absurd (hi.trans hk.symm) hne
    · exact fun _ hk _ => (hother k hk).symm
    · exact fun hi _ _ => hother i hi
    · exact h29.b i k
  · simp only [State.goto_slots, State.arm_slots, State.goto_units, State.arm_units, look_put]
    split
    · next hi =>
      rintro - rfl
      rw [if_pos rfl]
      exact ⟨rfl, hi.symm⟩
    · intro hi hu
      rw [if_neg (hu ▸ hother i hi)]
      exact h29.c i v hi hu
  · simp only [State.goto_slots, State.arm_slots, State.goto_units, State.arm_units, look_put]
    split
    · next hvu =>
      rintro - - rfl
      rw [if_pos rfl]
      exact ⟨rfl, hvu.symm⟩
    · intro hvv _ hs
      obtain ⟨hocc, hunit⟩ := h29.d v i hvv (hd v) hs
      rw [if_neg (by rintro rfl; simp [hfree] at hocc)]
      exact ⟨hocc, hunit⟩
  · simp only [State.goto_units, State.arm_units, look_put]
    split
    · intro h; cases h
    · exact hl.noSlot v
  · simp only [State.goto_units, State.arm_units, look_put]
    split
    · next hvu => exact fun _ => hvu ▸ hk
    · exact hl.attached v
  · rw [State.goto_irq, State.arm_irq, hn] at hq; cases hq

/-- The clearing of `slotV` and `slot` closes the window of rule R29(d). -/
theorem clearSlot_registry {s t : State} (h : RegistryOk s) (hp : s.fg = .clearSlot)
    (hn : t.irq = none) (hparams : t.params = s.params)
    (hslots : t.slots = s.slots) (hunits : t.units = (s.clearSlot (unitOf s.cmd)).units)
    (hk' : LineKnows t (unitOf t.cmd) t.fg) : RegistryOk t := by
  obtain ⟨h29, hl⟩ := h
  have hk := hl.knows
  rw [hp] at hk
  obtain ⟨-, hfree⟩ := hk
  have hother (i : SlotId) (hi : (s.slots.look i).occ = true) :
      (s.slots.look i).unit ≠ unitOf s.cmd := fun hu => by
    rw [(h29.c i _ hi hu).2] at hfree
    rw [hi] at hfree
    cases hfree
  have hd (v : UnitId) (hne : v ≠ unitOf s.cmd) : s.detaching ≠ some v := fun hd =>
    hne ((detaching_eq_some s v).1 hd).2.symm
  refine ⟨⟨fun i => ?_, fun i k => ?_, fun i v => ?_, fun v i => ?_⟩,
    .of_knows (fun v => ?_) (fun v => ?_) hk' fun p hq => ?_⟩
  · rw [hslots]; exact h29.a i
  · rw [hslots]; exact h29.b i k
  · simp only [hslots, hunits, State.clearSlot_units, look_put]
    intro hi hu
    rw [if_neg (hu ▸ hother i hi)]
    exact h29.c i v hi hu
  · simp only [hslots, hunits, State.clearSlot_units, look_put]
    split
    · intro h; cases h
    · next hne => exact fun hv _ => h29.d v i hv (hd v hne)
  · simp only [hunits, State.clearSlot_units, look_put]
    split
    · exact fun _ => rfl
    · exact hl.noSlot v
  · simp only [hunits, State.clearSlot_units, look_put, hparams]
    split
    · intro h; cases h
    · exact hl.attached v
  · rw [hn] at hq; cases hq

/-- PWRCYCLE writes no bank and no slot (rule R77). -/
theorem fgPowerCycle_sameRegistry (u : UnitId) (next : FgPos) (q : Pwr) (s : State) :
    SameRegistry s (fgPowerCycle u next q s) := by
  have hf := pwrStep_frame u q s
  rw [fgPowerCycle_eq]
  exact .of_units hf.params hf.slots (pwrStep_units u q s)

theorem fgAcquire_sameRegistry (u : UnitId) (a : Acq) (s : State) :
    SameRegistry s (fgAcquire u a s) := by
  rw [fgAcquire_eq]
  obtain ⟨hp, hs, hv, hsl, hcfg⟩ := acqStep_sameRegistry u a s
  exact ⟨hp, hs, hv, hsl, hcfg⟩

/-- Every line of a command keeps the registry invariants. -/
theorem CommandLine.registry {i : Instr} {u : UnitId} {s t : State} (hl : CommandLine i u s t)
    (hu : u = unitOf s.cmd) (ho : i.opcode = opcOf s.cmd) (hn : s.irq = none) (h : RegistryOk s) :
    RegistryOk t := by
  have hk := h.2.knows
  subst hu
  have hirq : t.irq = none := hl.frame.irq.trans hn
  have keep (hd : s.detaching = none) (hs : SameRegistry s t)
      (hk' : LineKnows s (unitOf s.cmd) t.fg) : RegistryOk t :=
    h.same hs (fun v hv => by rw [hd] at hv; cases hv)
      (hl.frame.cmd ▸ hk'.same hs hl.frame.cmd) fun p hp => by rw [hirq] at hp; cases hp
  cases hl with
  | fail _ hp | answer _ hp | readStart hp | pollEnter hp | pollBusy hp | pollReady hp
  | nbreadStart hp | acqExit _ hp | acqDone _ hp | pollAgain hp | armFail hp | attachExit _ hp
  | attachDone _ hp =>
    exact keep (by simp [State.detaching, hp]) (.of_units rfl rfl rfl) trivial
  | setEnB _ hp | setGain _ hp | defaults hp | attachNext hp =>
    exact keep (by simp [State.detaching, hp])
      (.of_put (u := unitOf s.cmd) rfl rfl rfl rfl rfl id) trivial
  | initPins hp =>
    exact keep (by simp [State.detaching, hp])
      (.of_put (u := unitOf s.cmd) rfl rfl rfl rfl rfl fun _ => rfl) trivial
  | detachBusy hp | detachReady hp =>
    obtain ⟨hp | hp, hv⟩ | hp := hp
    · exact keep (by simp [State.detaching, hp]) (.of_units rfl rfl rfl) hv
    · exact keep (by simp [State.detaching, hp]) (.of_units rfl rfl rfl) hv
    · rw [hp] at hk
      exact keep (by simp [State.detaching, hp]) (.of_units rfl rfl rfl) hk
  | deregEnter hp =>
    rw [hp] at hk
    exact keep (by simp [State.detaching, hp]) (.of_units rfl rfl rfl) hk
  | deregSlot hp =>
    rw [hp] at hk
    exact keep (by simp [State.detaching, hp]) (.of_units rfl rfl rfl) ⟨hk, rfl⟩
  | deregClear j hp => exact deregClear_registry h hp hn
  | deregExit hp =>
    rw [hp] at hk
    refine h.same (.of_units rfl rfl rfl) (fun v hv => ?_) hk fun p hp => ?_
    · exact (detaching_eq_some _ v).2 ⟨.inr rfl, ((detaching_eq_some s v).1 hv).2⟩
    · rw [hirq] at hp; cases hp
  | clearedDone hp => exact clearSlot_registry h hp hirq rfl rfl rfl trivial
  | clearedReset hp =>
    exact clearSlot_registry h hp hirq rfl rfl rfl (by simp [LineKnows])
  | resetDetached hp _ hv =>
    have hd : s.detaching = none := by obtain hp | hp := hp <;> simp [State.detaching, hp]
    exact keep hd (.of_units rfl rfl rfl) hv
  | pwrEnter hp =>
    rw [hp] at hk
    exact keep (by simp [State.detaching, hp]) (.of_units rfl rfl rfl) fun _ => hk
  | pwr q next hp hi =>
    rw [hp] at hk
    refine keep (by simp [State.detaching, hp]) (fgPowerCycle_sameRegistry _ next q s) ?_
    obtain ⟨q', e⟩ | e := fgPowerCycle_fg (unitOf s.cmd) next q s <;> rw [e]
    · exact hk
    · obtain ⟨hr, rfl⟩ | ⟨-, rfl⟩ := hi
      · exact hk (by rw [← ho]; obtain rfl | rfl := hr <;> simp [Instr.opcode])
      · trivial
  | pwrExit hp =>
    rw [hp] at hk
    exact keep (by simp [State.detaching, hp]) (.of_units rfl rfl rfl) hk
  | acq a hp =>
    refine keep (by simp [State.detaching, hp]) (fgAcquire_sameRegistry _ a s) ?_
    obtain ⟨a', e⟩ | ⟨ch, e⟩ := fgAcquire_fg (unitOf s.cmd) a s <;> rw [e] <;> trivial
  | iattStart hp _ hu hc =>
    exact keep (by simp [State.detaching, hp]) (.of_units rfl rfl rfl) ⟨hu, hc⟩
  | arm j hp hi hj => exact arm_registry h hp hj hn (by rw [← ho, hi]; rfl)

/-- The registry after power-on is empty (rule R122). -/
theorem powerOn_registry (s : State) : RegistryOk s.powerOnReset := by
  have hocc (i : SlotId) : (s.powerOnReset.slots.look i).occ = false := by rw [powerOnReset_slot]
  have hv (u : UnitId) : (s.powerOnReset.units.look u).slotV = false := by
    rw [powerOnReset_unit]; rfl
  refine ⟨⟨fun i h => ?_, fun i j h => ?_, fun i u h => ?_, fun u i h => ?_⟩,
    .of_knows (fun u _ => ?_) (fun u h => ?_) trivial fun p h => nomatch h⟩
  · rw [powerOnReset_slot] at h; cases h
  · rw [hocc] at h; cases h
  · rw [hocc] at h; cases h
  · rw [hv] at h; cases h
  · rw [powerOnReset_unit]; rfl
  · rw [hv] at h; cases h

theorem irqEnter_latched (s : State) (j : SlotId) : Latched s.slots (s.irqEnter j).slots := by
  intro i
  rw [State.irqEnter_slots, look_put]
  split
  · next h => subst h; exact ⟨rfl, rfl, (nomatch ·)⟩
  · exact ⟨rfl, rfl, .inl⟩

/-- Every move keeps the registry invariants. -/
theorem Move.registry {s t : State} (hm : Move s t) (h : RegistryOk s) : RegistryOk t := by
  have keep (hs : SameRegistry s t) (hf : t.fg = s.fg) (hc : t.cmd = s.cmd)
      (hirq : Armed s.slots t.irq) : RegistryOk t := by
    refine h.same hs (fun v hv => ?_) (hc ▸ hf ▸ h.2.knows.same hs hc) hirq
    rw [detaching_eq_some] at hv ⊢
    rwa [hf, hc]
  cases hm with
  | outside => exact keep (.of_units rfl rfl rfl) rfl rfl h.2.dispatch
  | accept w r hp =>
    refine h.same (.of_units rfl rfl rfl) (fun v hv => ?_) trivial h.2.dispatch
    simp [State.detaching, hp] at hv
  | drive d sl hs =>
    exact keep ⟨rfl, hs, fun _ => rfl, fun _ => rfl, fun _ => id⟩ rfl rfl h.2.dispatch
  | powerOn => exact powerOn_registry s
  | dispatch p a hp hl =>
    have hf := irqStep_frame p s
    refine keep ?_ hf.fg hf.cmd fun q hq => ?_
    · rw [irqStep_acq p a s hl]
      obtain ⟨hp, hs, hv, hsl, hcfg⟩ := acqStep_sameRegistry p.unit a s
      exact ⟨hp, hs, hv, hsl, hcfg⟩
    · rw [irqStep_acq p a s hl] at hq
      cases hq
      exact h.2.dispatch p hp
  | exit p hp => exact keep (.of_units rfl rfl rfl) rfl rfl fun p h => nomatch h
  | enter j hr =>
    obtain ⟨-, -, -, hpend, -⟩ := (irqReady_eq_some s j).1 hr
    refine keep ⟨rfl, irqEnter_latched s j, fun _ => rfl, fun _ => rfl, fun _ => id⟩ rfl rfl
      fun p hp => ?_
    cases hp
    exact ⟨h.1.a j hpend, rfl⟩
  | illegal e hn hp =>
    refine h.same (.of_units rfl rfl rfl) (fun v hv => ?_) trivial h.2.dispatch
    simp [State.detaching, hp] at hv
  | command i _ hn _ hd _ hl => exact hl.registry rfl (decode_opcode _ i hd) hn h

/-- No invariant speaks of the interleaving: the registry's hold without the event taken off. -/
theorem RegistryOk.popEvent {s : State} (h : RegistryOk s) : RegistryOk s.popEvent :=
  h.same (.of_units rfl rfl rfl) (fun _ => id) h.2.knows h.2.dispatch

/-- Settles O54: every move keeps `RegistryOk`. -/
theorem stepKeepsRegistryR29 : Obligations.StepKeepsRegistryR29 :=
  fun _ _ _ _ h29 hl hst => (step_move hst).registry (RegistryOk.popEvent ⟨h29, hl⟩)

end Sys2Proof.Machine
end

section
/-! PROOFS. What the engine is doing in a state, and one induction over moves for every invariant that
depends on that alone. -/

namespace Sys2Proof.Machine

/-! ### What the engine is doing -/

/-- What the engine is doing: nothing, a line of ACQUIRE(u), or a line of PWRCYCLE(u) in a command of
opcode `opc`. -/
inductive EngineOp where
  | free
  | acq (u : UnitId) (a : Acq)
  | pwr (opc : Nat) (u : UnitId) (q : Pwr)

/-- What the engine does at a line of a dispatch of u. -/
def IrqLine.op (u : UnitId) : IrqLine → EngineOp
  | .acq a => .acq u a
  | .exit => .free

/-- What the engine does at position p of a command of opcode `opc` on unit u. -/
def FgPos.op (opc : Nat) (u : UnitId) : FgPos → EngineOp
  | .acq a => .acq u a
  | .pwr q => .pwr opc u q
  | _ => .free

/-- What the engine is doing in whichever context runs. -/
def State.op (s : State) : EngineOp :=
  match s.irq with
  | some p => p.line.op p.unit
  | none => s.fg.op (opcOf s.cmd) (unitOf s.cmd)

/-- What the engine does after a microstep of ACQUIRE(u). -/
def AcqNext.op (u : UnitId) : AcqNext → EngineOp
  | .more a => .acq u a
  | .done _ => .free

/-- What the engine does after a microstep of PWRCYCLE(u). -/
def pwrNextOp (opc : Nat) (u : UnitId) : Option Pwr → EngineOp
  | some q => .pwr opc u q
  | none => .free

theorem op_irq {s : State} {p : IrqPos} (hp : s.irq = some p) : s.op = p.line.op p.unit := by
  rw [State.op, hp]

theorem op_fg {s : State} (hn : s.irq = none) : s.op = s.fg.op (opcOf s.cmd) (unitOf s.cmd) := by
  rw [State.op, hn]

/-- At FG's preemption points the engine is free (rule R106). -/
theorem op_preemptible {s : State} (hn : s.irq = none) (hp : s.fg.preemptible = true) :
    s.op = .free := by
  rw [op_fg hn]
  cases hf : s.fg with
  | acq _ | pwr _ => rw [hf] at hp; cases hp
  | _ => rfl

/-! ### One induction for the invariants of the engine -/

/-- What the engine works with is as before: its own registers, the clocks, the selections, and of the
banks `inH` and `cfg`. -/
structure SameEngine (s t : State) : Prop where
  engU : t.engU = s.engU
  bitcnt : t.bitcnt = s.bitcnt
  xcnt : t.xcnt = s.xcnt
  sck : t.sck = s.sck
  devsel : t.ghost.devsel = s.ghost.devsel
  inH : ∀ u : UnitId, (t.units.look u).inH = (s.units.look u).inH
  cfg : ∀ u : UnitId, (t.units.look u).cfg = (s.units.look u).cfg

theorem SameEngine.of_units {s t : State} (he : t.engU = s.engU) (hb : t.bitcnt = s.bitcnt)
    (hx : t.xcnt = s.xcnt) (hs : t.sck = s.sck) (hd : t.ghost.devsel = s.ghost.devsel)
    (hu : t.units = s.units) : SameEngine s t :=
  ⟨he, hb, hx, hs, hd, fun _ => by rw [hu], fun _ => by rw [hu]⟩

/-- A write to one bank that leaves `inH` and `cfg` leaves what the engine works with. -/
theorem SameEngine.of_put {s t : State} {u : UnitId} {b : UnitBank} (he : t.engU = s.engU)
    (hb : t.bitcnt = s.bitcnt) (hx : t.xcnt = s.xcnt) (hs : t.sck = s.sck)
    (hd : t.ghost.devsel = s.ghost.devsel) (hu : t.units = s.units.put u b)
    (hh : b.inH = (s.units.look u).inH) (hc : b.cfg = (s.units.look u).cfg) : SameEngine s t :=
  ⟨he, hb, hx, hs, hd, hu ▸ look_put_congr UnitBank.inH hh, hu ▸ look_put_congr UnitBank.cfg hc⟩

/-- A property of what the engine works with, given what it is doing, that its microprograms and the lines
that start them keep. -/
structure EngineInvariant (P : State → EngineOp → Prop) : Prop where
  same : ∀ {s t : State} {o : EngineOp}, P s o → SameEngine s t → P t o
  powerOn : ∀ s : State, P s.powerOnReset .free
  init : ∀ {s : State} (u : UnitId), P s .free → P (initStart u s) .free
  enter : ∀ {s : State} (u : UnitId), P s .free → P s (.acq u .enter)
  acq : ∀ {s : State} {u : UnitId} {a : Acq}, P s (.acq u a) →
    P (acqStep u a s).2 ((acqStep u a s).1.op u)
  cycle : ∀ {s : State} {opc : Nat} (u : UnitId), opc ≠ 0x08 → P s .free → P s (.pwr opc u .engOn)
  arm : ∀ {s : State} (u : UnitId) (j : SlotId), P s .free → P (s.arm u j) (.pwr 0x08 u .engOn)
  pwr : ∀ {s : State} {opc : Nat} {u : UnitId} {q : Pwr}, P s (.pwr opc u q) →
    P (pwrStep u q s).2 (pwrNextOp opc u (pwrStep u q s).1)

section
variable {P : State → EngineOp → Prop} (hP : EngineInvariant P)
include hP

/-- Every line of a command keeps a property of the engine. -/
theorem EngineInvariant.line {i : Instr} {u : UnitId} {s t : State} (hl : CommandLine i u s t)
    (h : P s (s.fg.op i.opcode u)) : P t (t.fg.op i.opcode u) := by
  cases hl with
  | fail _ hp | answer _ hp | readStart hp | pollEnter hp | pollBusy hp | acqExit _ hp | acqDone _ hp
  | pollAgain hp | armFail hp | attachExit _ hp | attachDone _ hp | deregEnter hp | deregSlot hp
  | deregClear _ hp | deregExit hp | pwrExit hp | iattStart hp =>
    rw [hp] at h
    exact hP.same h (.of_units rfl rfl rfl rfl rfl rfl)
  | setEnB _ hp | setGain _ hp | clearedDone hp | clearedReset hp | defaults hp | attachNext hp =>
    rw [hp] at h
    exact hP.same h (.of_put (u := u) rfl rfl rfl rfl rfl rfl rfl rfl)
  | initPins hp =>
    rw [hp] at h
    exact hP.init u h
  | detachBusy hp | detachReady hp =>
    obtain ⟨hp | hp, -⟩ | hp := hp <;> rw [hp] at h <;>
      exact hP.same h (.of_units rfl rfl rfl rfl rfl rfl)
  | resetDetached hp =>
    obtain hp | hp := hp <;> rw [hp] at h <;> exact hP.same h (.of_units rfl rfl rfl rfl rfl rfl)
  | pollReady hp | nbreadStart hp =>
    rw [hp] at h
    exact hP.same (hP.enter u h) (.of_units rfl rfl rfl rfl rfl rfl)
  | acq a hp =>
    rw [hp] at h
    have ha := hP.acq h
    rw [fgAcquire_eq]
    revert ha
    cases (acqStep u a s).1 <;> exact (hP.same · (.of_units rfl rfl rfl rfl rfl rfl))
  | pwrEnter hp hi =>
    rw [hp] at h
    have ho : i.opcode ≠ 0x08 := by obtain rfl | rfl := hi <;> simp [Instr.opcode]
    exact hP.same (hP.cycle u ho h) (.of_units rfl rfl rfl rfl rfl rfl)
  | arm j hp hi =>
    rw [hp] at h
    subst hi
    exact hP.same (o := .pwr 0x08 u .engOn) (hP.arm u j h) (.of_units rfl rfl rfl rfl rfl rfl)
  | pwr q next hp hi =>
    rw [hp] at h
    have hq := hP.pwr h
    rw [fgPowerCycle_eq]
    revert hq
    cases (pwrStep u q s).1 with
    | some q' => exact (hP.same · (.of_units rfl rfl rfl rfl rfl rfl))
    | none =>
      obtain ⟨-, rfl⟩ | ⟨-, rfl⟩ := hi <;> exact (hP.same · (.of_units rfl rfl rfl rfl rfl rfl))

/-- Every move keeps a property of the engine. -/
theorem EngineInvariant.move {s t : State} (hm : Move s t) (hmask : MaskOk s) (h : P s s.op) :
    P t t.op := by
  cases hm with
  | outside | drive => exact hP.same h (.of_units rfl rfl rfl rfl rfl rfl)
  | accept w r hp =>
    have ho : ({ s.accept w with resp := r } : State).op = s.op := by
      cases hq : s.irq with
      | none => rw [op_preemptible hq (by rw [hp]; rfl)]; exact op_preemptible hq rfl
      | some p => rw [op_irq hq]; exact op_irq hq
    rw [ho]
    exact hP.same h (.of_units rfl rfl rfl rfl rfl rfl)
  | powerOn => exact hP.powerOn s
  | dispatch p a hp hl =>
    rw [op_irq hp, hl] at h
    have ha := hP.acq h
    rw [irqStep_acq p a s hl, op_irq rfl]
    revert ha
    cases (acqStep p.unit a s).1 <;> exact (hP.same · (.of_units rfl rfl rfl rfl rfl rfl))
  | exit p hp hl =>
    rw [op_irq hp, hl] at h
    rw [op_preemptible (s := s.irqExit) rfl (hmask.2 (by rw [hp]; rfl))]
    exact hP.same h (.of_units rfl rfl rfl rfl rfl rfl)
  | enter j hr =>
    obtain ⟨hn, -, hpre, -⟩ := (irqReady_eq_some s j).1 hr
    rw [op_preemptible hn hpre] at h
    exact hP.same (hP.enter _ h) (.of_units rfl rfl rfl rfl rfl rfl)
  | illegal e hn hp =>
    rw [op_preemptible hn (by rw [hp]; rfl)] at h
    rw [op_preemptible (s := s.raise e) hn rfl]
    exact hP.same h (.of_units rfl rfl rfl rfl rfl rfl)
  | command i _ hn _ hd _ hl =>
    rw [op_fg hn, ← decode_opcode _ i hd] at h
    rw [op_fg (hl.frame.irq.trans hn), hl.frame.cmd, ← decode_opcode _ i hd]
    exact hP.line hl h

end

end Sys2Proof.Machine
end

section
/-! PROOFS. The three invariants of the engine: `ENG_U` and `inH`, the clock pins, and the counts. -/

namespace Sys2Proof.Machine

/-! ### `ENG_U` and `inH` (rule R31) -/

/-- The unit that ACQUIRE(u) holds at line a. -/
def Acq.holder (u : UnitId) (a : Acq) : Option UnitId := if a.holds then some u else none

/-- The unit an acquisition in progress holds. -/
def EngineOp.holder : EngineOp → Option UnitId
  | .acq u a => a.holder u
  | .free | .pwr _ _ _ => none

/-- The unit a power cycle in progress holds; `IATT` sets `ENG_U` before PWRCYCLE does. -/
def EngineOp.cycler : EngineOp → Option UnitId
  | .pwr opc u .engOn => if opc = 0x08 then some u else none
  | .pwr _ u _ => some u
  | .free | .acq _ _ => none

theorem acquiring_op (s : State) : s.acquiring = s.op.holder := by
  rw [State.acquiring, State.op]
  cases s.irq with
  | some p => dsimp only; cases p.line <;> rfl
  | none => cases s.fg <;> rfl

theorem powerCycling_op (s : State) : s.powerCycling = s.op.cycler := by
  rw [State.powerCycling, State.op]
  cases s.irq with
  | some p => dsimp only; cases p.line <;> rfl
  | none =>
    cases s.fg with
    | pwr q => cases q <;> rfl
    | _ => rfl

/-- `ENG_U` and `inH` are what an operation of the engine makes them. -/
abbrev EngineIs (s : State) (o : EngineOp) : Prop :=
  s.engU = (o.holder <|> o.cycler) ∧ ∀ u : UnitId, (s.units.look u).inH = decide (o.holder = some u)

theorem engineOk_iff (s : State) : EngineOk s ↔ EngineIs s s.op := by
  rw [EngineOk, acquiring_op, powerCycling_op]

theorem EngineIs.same {s t : State} {o : EngineOp} (h : EngineIs s o) (he : t.engU = s.engU)
    (hh : ∀ u : UnitId, (t.units.look u).inH = (s.units.look u).inH) : EngineIs t o :=
  ⟨he.trans h.1, fun u => (hh u).trans (h.2 u)⟩

theorem put_inH (v : Vector UnitBank 16) (u w : UnitId) (b : Bool) :
    ((v.put u { v.look u with inH := b }).look w).inH = if w = u then b else (v.look w).inH := by
  rw [look_put]
  split <;> rfl

theorem exchStep_engU (u : UnitId) (k : Nat) (x : Exch) (s : State) :
    (exchStep u k x s).2.engU = s.engU := by
  cases x <;> rfl

/-- A line of EXCHANGE leads to another one or to the commit, so ACQUIRE holds its unit after it. -/
theorem acqStep_exch_holder (u : UnitId) (f : Frame) (x : Exch) (s : State) :
    ((acqStep u (.exch f x) s).1.op u).holder = some u ∧
      ((acqStep u (.exch f x) s).1.op u).cycler = none := by
  rw [acqStep_exch]
  cases (exchStep u f.k x s).1 <;> exact ⟨rfl, rfl⟩

/-- A microstep of ACQUIRE sets and clears `ENG_U` and `inH` as its lines say (rule R88). -/
theorem acqStep_engine {u : UnitId} {a : Acq} {s : State} (h : EngineIs s (.acq u a)) :
    EngineIs (acqStep u a s).2 ((acqStep u a s).1.op u) := by
  cases a with
  | enter =>
    refine ⟨rfl, fun v => (put_inH s.units u v true).trans ?_⟩
    have hv : (s.units.look v).inH = false := h.2 v
    show (if v = u then true else (s.units.look v).inH) = decide (some u = some v)
    simp [hv, eq_comm]
  | release ch =>
    refine ⟨rfl, fun v => (put_inH s.units u v false).trans ?_⟩
    have hv : (s.units.look v).inH = decide (some u = some v) := h.2 v
    show (if v = u then false else (s.units.look v).inH) = false
    simp [hv, eq_comm]
  | select | ret => exact h
  | commit f v =>
    refine h.same rfl (look_put_congr UnitBank.inH ?_)
    obtain ⟨ch, nA, k⟩ := f
    cases ch <;> rfl
  | exch f x =>
    obtain ⟨hh, hc⟩ := acqStep_exch_holder u f x s
    rw [EngineIs, hh, hc, acqStep_exch]
    exact h.same (exchStep_engU u f.k x s) fun v => by rw [exchStep_units]

theorem engineIs_invariant : EngineInvariant EngineIs where
  same h hs := h.same hs.engU hs.inH
  powerOn s := ⟨rfl, fun u => by rw [powerOnReset_unit]; rfl⟩
  init u h := h.same rfl (look_put_congr UnitBank.inH rfl)
  enter u h := h
  acq := acqStep_engine
  cycle u ho h := ⟨h.1.trans (by simp [EngineOp.holder, EngineOp.cycler, ho]), h.2⟩
  arm {s} u j h :=
    have hh : ∀ v : UnitId, ((s.arm u j).units.look v).inH = (s.units.look v).inH :=
      look_put_congr UnitBank.inH rfl
    ⟨rfl, fun v => (hh v).trans (h.2 v)⟩
  pwr {s opc u q} h := by
    cases q with
    | engOn | engOff => exact ⟨rfl, h.2⟩
    | _ => exact h

/-- Every move keeps `ENG_U` and `inH` what the position says. -/
theorem Move.engine {s t : State} (hm : Move s t) (hmask : MaskOk s) (h : EngineOk s) : EngineOk t :=
  (engineOk_iff t).2 (engineIs_invariant.move hm hmask ((engineOk_iff s).1 h))

/-! ### The clock pins (rules R30, R78) -/

/-- The unit whose clock ACQUIRE(u) holds high at line a. -/
def Acq.clock (u : UnitId) : Acq → Option UnitId
  | .exch _ x => if x.high then some u else none
  | _ => none

/-- The unit whose clock an operation of the engine holds high. -/
def EngineOp.clock : EngineOp → Option UnitId
  | .acq u a => a.clock u
  | .pwr _ u .hold | .pwr _ u .low => some u
  | .free | .pwr _ _ _ => none

theorem clockHigh_op (s : State) : s.clockHigh = s.op.clock := by
  rw [State.clockHigh, State.op]
  cases s.irq with
  | some p =>
    obtain ⟨i, u, l⟩ := p
    cases l with
    | acq a => cases a <;> rfl
    | exit => rfl
  | none =>
    cases s.fg with
    | acq a => cases a <;> rfl
    | pwr q => cases q <;> rfl
    | _ => rfl

/-- Every clock is driven exactly when its unit is configured, and a driven clock is low but for the one an
operation of the engine holds high. -/
abbrev PinsAre (s : State) (o : EngineOp) : Prop :=
  ∀ u : UnitId, (s.sck.look u).drv = (s.units.look u).cfg ∧
    ((s.sck.look u).drv = true → (s.sck.look u).lvl = decide (o.clock = some u))

theorem pinsOk_iff (s : State) : PinsOk s ↔ PinsAre s s.op := by
  rw [PinsOk, clockHigh_op]

theorem PinsAre.same {s t : State} {o : EngineOp} (h : PinsAre s o) (hs : t.sck = s.sck)
    (hc : ∀ u : UnitId, (t.units.look u).cfg = (s.units.look u).cfg) : PinsAre t o := by
  intro u
  rw [hs, hc]
  exact h u

/-- Unit u's clock is written while no other clock is high. -/
theorem PinsAre.write {s t : State} {u : UnitId} {o o' : EngineOp} (h : PinsAre s o)
    (ho : o.clock = none ∨ o.clock = some u) (b : Bool) (hs : t.sck = (s.pinWrite u b).sck)
    (hc : t.units = s.units) (ho' : o'.clock = if b then some u else none) : PinsAre t o' := by
  intro v
  rw [hs, hc, ho', State.pinWrite_sck, look_put]
  split
  · next hv =>
    subst hv
    exact ⟨(h v).1, fun _ => by cases b <;> simp⟩
  · next hv =>
    refine ⟨(h v).1, fun hd => ((h v).2 hd).trans ?_⟩
    have hne : u ≠ v := Ne.symm hv
    rcases ho with ho | ho <;> cases b <;> simp [ho, hne]

/-- Driving unit u's clock low, as `INIT` does, configures it. -/
theorem initStart_pins {s : State} (u : UnitId) (h : PinsAre s .free) :
    PinsAre (initStart u s) .free := by
  intro v
  simp only [initStart, State.goto_sck, State.goto_units, State.modUnit_sck, State.modUnit_units,
    State.driveLow_sck, State.driveLow_units, look_put]
  split
  · simp [EngineOp.clock]
  · exact h v

theorem acqStep_pins {u : UnitId} {a : Acq} {s : State} (h : PinsAre s (.acq u a)) :
    PinsAre (acqStep u a s).2 ((acqStep u a s).1.op u) := by
  cases a with
  | enter | release => exact h.same rfl (look_put_congr UnitBank.cfg rfl)
  | select | ret => exact h
  | commit f v =>
    refine h.same rfl (look_put_congr UnitBank.cfg ?_)
    obtain ⟨ch, nA, k⟩ := f
    cases ch <;> rfl
  | exch f x =>
    cases x with
    | dataHigh | extraHigh => exact h.write (.inl rfl) true rfl rfl rfl
    | dataLow | extraLow => exact h.write (.inr rfl) false rfl rfl rfl
    | dataShift b =>
      show PinsAre _ (.acq u (.exch f (afterDataPulse s)))
      unfold afterDataPulse
      split <;> exact h
    | extraRest =>
      show PinsAre _ (.acq u (.exch f (afterExtraPulse f.k s)))
      unfold afterExtraPulse
      split <;> exact h
    | _ => exact h

theorem pwrStep_pins {opc : Nat} {u : UnitId} {q : Pwr} {s : State} (h : PinsAre s (.pwr opc u q)) :
    PinsAre (pwrStep u q s).2 (pwrNextOp opc u (pwrStep u q s).1) := by
  cases q with
  | high => exact h.write (.inl rfl) true rfl rfl rfl
  | low => exact h.write (.inr rfl) false rfl rfl rfl
  | _ => exact h

theorem pinsAre_invariant : EngineInvariant PinsAre where
  same h hs := h.same hs.sck hs.cfg
  powerOn s u := by
    rw [powerOnReset_unit]
    simp [State.powerOnReset, UnitBank.powerOn]
  init := initStart_pins
  enter u h := h
  acq := acqStep_pins
  cycle u ho h := h
  arm u j h := h.same rfl (look_put_congr UnitBank.cfg rfl)
  pwr := pwrStep_pins

/-- Every move keeps a driven clock low but in the engine's high phases (rule R78). -/
theorem Move.pins {s t : State} (hm : Move s t) (hmask : MaskOk s) (h : PinsOk s) : PinsOk t :=
  (pinsOk_iff t).2 (pinsAre_invariant.move hm hmask ((pinsOk_iff s).1 h))

/-! ### The counts (rules R31, R57, R73) -/

/-- The counts are in their ranges, and those an acquisition in progress has made so far. -/
structure CountsAre (s : State) (o : EngineOp) : Prop where
  bits : s.bitcnt ≤ 24
  extras : s.xcnt ≤ 3
  frame : ∀ u a, o = .acq u a → a.FrameOk s u

theorem CountOk.counts {s : State} (h : CountOk s) : CountsAre s s.op := by
  refine ⟨h.bits, h.extras, fun u a ho => ?_⟩
  cases hq : s.irq with
  | some p =>
    rw [op_irq hq] at ho
    cases hl : p.line with
    | acq b => rw [hl] at ho; cases ho; exact h.irq p a hq hl
    | exit => rw [hl] at ho; cases ho
  | none =>
    rw [op_fg hq] at ho
    cases hf : s.fg <;> rw [hf] at ho <;> cases ho
    exact h.fg a hf

theorem CountsAre.countOk {s : State} (h : CountsAre s s.op) (hmask : MaskOk s) : CountOk s where
  bits := h.bits
  extras := h.extras
  irq p a hp hl := h.frame p.unit a (by rw [op_irq hp, hl]; rfl)
  fg a hf := by
    have hn : s.irq = none := by
      cases hq : s.irq with
      | none => rfl
      | some p =>
        have := hmask.2 (by rw [hq]; rfl)
        rw [hf] at this
        cases this
    exact h.frame _ a (by rw [op_fg hn, hf]; rfl)

/-- What SELECT gives is a frame of its table (rule R85). -/
theorem selectFrame_ok (enB nextA : Bool) (g : Gain) : (selectFrame enB nextA g).Ok := by
  cases enB <;> cases nextA <;> cases g <;> simp [selectFrame, Frame.Ok]

theorem Frame.Ok.k_range {f : Frame} (h : f.Ok) : 1 ≤ f.k ∧ f.k ≤ 3 := by
  obtain ⟨hk, -⟩ | ⟨hk | hk, -⟩ := h <;> omega

theorem Acq.FrameOk.same {s t : State} {u : UnitId} {a : Acq} (h : a.FrameOk s u)
    (hb : t.bitcnt = s.bitcnt) (hx : t.xcnt = s.xcnt) (hd : t.ghost.devsel = s.ghost.devsel) :
    a.FrameOk t u := by
  cases a <;> simp only [Acq.FrameOk, hb, hx, hd] at h ⊢ <;> exact h

theorem CountsAre.same {s t : State} {o : EngineOp} (h : CountsAre s o)
    (hb : t.bitcnt = s.bitcnt) (hx : t.xcnt = s.xcnt) (hd : t.ghost.devsel = s.ghost.devsel) :
    CountsAre t o :=
  ⟨hb ▸ h.bits, hx ▸ h.extras, fun u a ho => (h.frame u a ho).same hb hx hd⟩

/-- The counts at a line of ACQUIRE(u). -/
theorem CountsAre.of_acq {s : State} {u : UnitId} {a : Acq} (hb : s.bitcnt ≤ 24) (hx : s.xcnt ≤ 3)
    (hf : a.FrameOk s u) : CountsAre s (.acq u a) :=
  ⟨hb, hx, fun _ _ ho => by cases ho; exact hf⟩

/-- The counts b and n at a line of EXCHANGE inside ACQUIRE(u). -/
theorem CountsAre.exch {s : State} {u : UnitId} {f : Frame} {x : Exch} (b n : Nat) (hb : s.bitcnt = b)
    (hn : s.xcnt = n) (hok : f.Ok) (hc : x.counts f.k b n) (hb' : b ≤ 24) (hn' : n ≤ 3) :
    CountsAre s (.acq u (.exch f x)) := by
  subst hb hn
  exact .of_acq hb' hn' ⟨hok, hc⟩

/-- A microstep of EXCHANGE counts its pulses (rule R72). -/
theorem exchStep_counts {u : UnitId} {f : Frame} {x : Exch} {s : State}
    (h : CountsAre s (.acq u (.exch f x))) :
    CountsAre (acqStep u (.exch f x) s).2 ((acqStep u (.exch f x) s).1.op u) := by
  obtain ⟨hb, hx, hf⟩ := h
  obtain ⟨hok, hc⟩ := hf u _ rfl
  obtain ⟨hk, hk'⟩ := hok.k_range
  cases x with
  | clear => exact .exch 0 0 rfl rfl hok ⟨by omega, rfl⟩ (by omega) (by omega)
  | dataHigh =>
    obtain ⟨hlt, h0⟩ := hc
    exact .exch (s.bitcnt + 1) s.xcnt rfl rfl hok ⟨by omega, by omega, h0⟩ (by omega) hx
  | dataSettle | dataSample | dataLow | dataRest =>
    exact .exch s.bitcnt s.xcnt rfl rfl hok hc hb hx
  | dataShift b =>
    obtain ⟨-, -, h0⟩ := hc
    show CountsAre _ (.acq u (.exch f (afterDataPulse s)))
    unfold afterDataPulse
    split
    · next hlt => exact .exch s.bitcnt s.xcnt rfl rfl hok ⟨hlt, h0⟩ hb hx
    · next hge =>
      have h24 : s.bitcnt = 24 := by simp only [dataBits] at hge; omega
      exact .exch s.bitcnt s.xcnt rfl rfl hok ⟨h24, by omega⟩ hb hx
  | extraHigh =>
    obtain ⟨h24, hlt⟩ := hc
    exact .exch s.bitcnt (s.xcnt + 1) rfl rfl hok ⟨h24, by omega, by omega⟩ hb (by omega)
  | extraSettle | extraLow => exact .exch s.bitcnt s.xcnt rfl rfl hok hc hb hx
  | extraRest =>
    obtain ⟨h24, -, hle⟩ := hc
    show CountsAre _ (.acq u (.exch f (afterExtraPulse f.k s)))
    unfold afterExtraPulse
    split
    · next hlt => exact .exch s.bitcnt s.xcnt rfl rfl hok ⟨h24, hlt⟩ hb hx
    · next hge => exact .exch s.bitcnt s.xcnt rfl rfl hok ⟨h24, by omega⟩ hb hx
  | ret =>
    refine .of_acq (Nat.le_of_lt_succ (Config.freeBitcnt s.ghost.draws).isLt)
      (Nat.le_of_lt_succ (Config.freeXcnt s.ghost.draws).isLt) ⟨hok, ?_⟩
    show (s.ghost.devsel.put u _).look u = .unknown ∨ (s.ghost.devsel.put u _).look u = devSelOf f.k
    rw [look_put, if_pos rfl]
    split
    · exact .inr rfl
    · exact .inl rfl

theorem acqStep_counts {u : UnitId} {a : Acq} {s : State} (h : CountsAre s (.acq u a)) :
    CountsAre (acqStep u a s).2 ((acqStep u a s).1.op u) := by
  cases a with
  | enter | commit | release => exact .of_acq h.bits h.extras trivial
  | select => exact .of_acq h.bits h.extras ⟨selectFrame_ok _ _ _, trivial⟩
  | ret => exact ⟨h.bits, h.extras, fun _ _ ho => nomatch ho⟩
  | exch f x => exact exchStep_counts h

/-- Outside an acquisition the counts need only be in their ranges. -/
theorem CountsAre.of_ranges {s : State} {o : EngineOp} (hb : s.bitcnt ≤ 24) (hx : s.xcnt ≤ 3)
    (ho : ∀ u a, o ≠ .acq u a) : CountsAre s o :=
  ⟨hb, hx, fun u a h => absurd h (ho u a)⟩

theorem countsAre_invariant : EngineInvariant CountsAre where
  same h hs := h.same hs.bitcnt hs.xcnt hs.devsel
  powerOn s := .of_ranges (Nat.le_of_lt_succ (Config.freeBitcnt s.ghost.draws).isLt)
    (Nat.le_of_lt_succ (Config.freeXcnt s.ghost.draws).isLt) (by simp)
  init u h := .of_ranges h.bits h.extras (by simp)
  enter u h := .of_acq h.bits h.extras trivial
  acq := acqStep_counts
  cycle u _ h := .of_ranges h.bits h.extras (by simp)
  arm u j h := .of_ranges h.bits h.extras (by simp)
  pwr {s opc u q} h := by cases q <;> exact .of_ranges h.bits h.extras (by simp [pwrNextOp, pwrStep])

/-- Every move keeps the counts and the frame of an acquisition in progress. -/
theorem Move.counts {s t : State} (hm : Move s t) (hmask : MaskOk s) (h : CountOk s) : CountOk t :=
  (countsAre_invariant.move hm hmask h.counts).countOk (hm.mask hmask)

end Sys2Proof.Machine
end

section
/-! PROOFS. The synchronisation of `nextA` with the device's selection (rule R70), and the whole
invariant. -/

namespace Sys2Proof.Machine

/-! ### The windows of rule R70 -/

/-- The lines from the end of a power cycle's high phase to the one that sets `nextA`. -/
def FgPos.cycled : FgPos → Bool
  | .pwr .settle | .pwr .engOff | .pwrExit | .defaults | .attachNext => true
  | _ => false

/-- The line of ACQUIRE that commits a reading. -/
def Acq.commits : Acq → Bool
  | .commit _ _ => true
  | _ => false

/-- The line of a dispatch at which ACQUIRE commits a reading. -/
def IrqLine.commits : IrqLine → Bool
  | .acq a => a.commits
  | .exit => false

/-- The lines of the foreground inside the windows of rule R70. -/
def FgPos.reselects : FgPos → Bool
  | .acq a => a.commits
  | p => p.cycled

theorem cycled_iff (p : FgPos) : p.cycled = true ↔ p = .pwr .settle ∨ p = .pwr .engOff ∨
    p = .pwrExit ∨ p = .defaults ∨ p = .attachNext := by
  unfold FgPos.cycled
  split <;> simp_all

theorem commits_iff (a : Acq) : a.commits = true ↔ ∃ f v, a = .commit f v := by
  cases a <;> simp [Acq.commits]

theorem reselects_iff (p : FgPos) :
    p.reselects = true ↔ (∃ f v, p = .acq (.commit f v)) ∨ p.cycled = true := by
  cases p <;> simp [FgPos.reselects, FgPos.cycled, commits_iff]

/-- The unit of the running context is in a window exactly at these lines. -/
theorem reselecting_fg {s : State} (hn : s.irq = none) (u : UnitId) :
    s.reselecting u ↔ unitOf s.cmd = u ∧ s.fg.reselects = true := by
  rw [State.reselecting, reselects_iff, cycled_iff, hn]
  simp

theorem reselecting_irq {s : State} {p : IrqPos} (hp : s.irq = some p) (u : UnitId) :
    s.reselecting u ↔ (p.unit = u ∧ p.line.commits = true) ∨
      (unitOf s.cmd = u ∧ s.fg.reselects = true) := by
  have hl : p.line.commits = true ↔ ∃ f v, p.line = .acq (.commit f v) := by
    cases p.line <;> simp [IrqLine.commits, commits_iff]
  rw [State.reselecting, reselects_iff, cycled_iff, hl, hp]
  simp

/-- While it is known, the device's selection of unit u agrees with `nextA`. -/
abbrev Agrees (s : State) (u : UnitId) : Prop :=
  s.ghost.devsel.look u ≠ .unknown →
    ((s.units.look u).nextA = true ↔
      s.ghost.devsel.look u = .aHigh ∨ s.ghost.devsel.look u = .aLow)

theorem Agrees.same {s t : State} {u : UnitId} (h : Agrees s u)
    (hd : t.ghost.devsel.look u = s.ghost.devsel.look u)
    (hn : (t.units.look u).nextA = (s.units.look u).nextA) : Agrees t u := by
  rw [Agrees, hd, hn]
  exact h

/-- The invariant in terms of these lines. -/
theorem syncOk_iff (s : State) : SyncOk s ↔ (∀ u, ¬ s.reselecting u → Agrees s u) ∧
    (s.fg.cycled = true → s.ghost.devsel.look (unitOf s.cmd) = .aHigh) := by
  rw [cycled_iff]
  exact ⟨fun h => ⟨fun u hr hu => h.agrees u hu hr, h.cycled⟩,
    fun h => ⟨fun u hu hr => h.1 u hr hu, h.2⟩⟩

/-- A frame of SELECT makes the selection its pulses ask for agree with its `nextA` (rules R66, R85). -/
theorem Frame.Ok.devSelOf_iff {f : Frame} (h : f.Ok) :
    f.nextA = true ↔ devSelOf f.k = .aHigh ∨ devSelOf f.k = .aLow := by
  obtain ⟨hk, hn⟩ | ⟨hk | hk, hn⟩ := h <;> simp [hk, hn, devSelOf]

theorem exchStep_devsel {x : Exch} (hx : x ≠ .ret) (u : UnitId) (k : Nat) (s : State) :
    (exchStep u k x s).2.ghost.devsel = s.ghost.devsel := by
  cases x with
  | ret => exact absurd rfl hx
  | _ => rfl

/-- Outside the commit an ACQUIRE keeps its unit's agreement, and the commit restores it (rules R70, R88). -/
theorem acqStep_agrees {u : UnitId} {a : Acq} {s : State} (hf : a.FrameOk s u)
    (h : a.commits = false → Agrees s u)
    (hnext : ∀ a', (acqStep u a s).1 = .more a' → a'.commits = false) :
    Agrees (acqStep u a s).2 u := by
  cases a with
  | enter | release =>
    refine (h rfl).same rfl ?_
    show ((s.units.put u _).look u).nextA = _
    rw [look_put, if_pos rfl]
  | select | ret => exact h rfl
  | commit f v =>
    obtain ⟨hok, hd⟩ := hf
    have hn : ((acqStep u (.commit f v) s).2.units.look u).nextA = f.nextA := by
      show ((s.units.put u _).look u).nextA = f.nextA
      rw [look_put, if_pos rfl]
      rfl
    intro hu
    rw [hn]
    obtain hd | hd := hd
    · exact absurd hd hu
    · exact hd ▸ hok.devSelOf_iff
  | exch f x =>
    by_cases hx : x = .ret
    · subst hx
      exact absurd (hnext _ rfl) (by simp [Acq.commits])
    · rw [acqStep_exch]
      refine (h rfl).same ?_ ?_
      · rw [exchStep_devsel hx]
      · rw [exchStep_units]

/-- What changes neither a selection nor `nextA`, and leaves no window of rule R70. -/
theorem SyncOk.same {s t : State} (h : SyncOk s) (hd : t.ghost.devsel = s.ghost.devsel)
    (hn : ∀ u : UnitId, (t.units.look u).nextA = (s.units.look u).nextA)
    (hr : ∀ u : UnitId, s.reselecting u → t.reselecting u)
    (hc : t.fg.cycled = true → t.ghost.devsel.look (unitOf t.cmd) = .aHigh) : SyncOk t := by
  obtain ⟨hagree, -⟩ := (syncOk_iff s).1 h
  exact (syncOk_iff t).2
    ⟨fun u hu => (hagree u (mt (hr u) hu)).same (by rw [hd]) (hn u), hc⟩

/-- The lines that close the window after a power cycle: `nextA <- 1`, and the device selects channel A. -/
theorem SyncOk.setNextA {s t : State} {u : UnitId} {b : UnitBank} (h : SyncOk s) (hs : s.irq = none)
    (hu : u = unitOf s.cmd) (hp : s.fg.cycled = true) (hd : t.ghost.devsel = s.ghost.devsel)
    (hunits : t.units = s.units.put u b) (hb : b.nextA = true) (hc : t.fg.cycled = false) :
    SyncOk t := by
  obtain ⟨hagree, hcyc⟩ := (syncOk_iff s).1 h
  refine (syncOk_iff t).2 ⟨fun v _ => ?_, fun h => by rw [hc] at h; cases h⟩
  by_cases hv : v = u
  · subst hv
    intro _
    rw [hunits, look_put, if_pos rfl, hd, hu, hcyc hp]
    simp [hb]
  · refine (hagree v fun hr => hv ?_).same (by rw [hd]) (by rw [hunits, look_put, if_neg hv])
    rw [hu, ((reselecting_fg hs v).1 hr).1]

/-- Every line of PWRCYCLE keeps the synchronisation: driving the clock low again opens the window
(rules R67, R77). -/
theorem pwr_sync {u : UnitId} {next : FgPos} {q : Pwr} {s : State} (hu : u = unitOf s.cmd)
    (hn : s.irq = none) (hp : s.fg = .pwr q) (hnext : next.cycled = true) (h : SyncOk s) :
    SyncOk (fgPowerCycle u next q s) := by
  obtain ⟨hagree, hcyc⟩ := (syncOk_iff s).1 h
  have before (v : UnitId) (hq : (FgPos.pwr q).reselects = false) : ¬ s.reselecting v := fun hr => by
    rw [reselecting_fg hn, hp, hq] at hr; cases hr.2
  have within (t : State) (ht : t.irq = none) (hcmd : t.cmd = s.cmd) (hf : t.fg.reselects = true)
      (v : UnitId) (hr : s.reselecting v) : t.reselecting v :=
    (reselecting_fg ht v).2 ⟨hcmd ▸ ((reselecting_fg hn v).1 hr).1, hf⟩
  cases q with
  | engOn | high | hold =>
    exact h.same rfl (fun _ => rfl) (fun v hr => absurd hr (before v rfl)) (nomatch ·)
  | low =>
    refine (syncOk_iff _).2 ⟨fun v hr => ?_, fun _ => ?_⟩
    · have hv : v ≠ u := fun hv => hr ((reselecting_fg (s := fgPowerCycle u next .low s) hn v).2
        ⟨(hv.trans hu).symm, rfl⟩)
      refine (hagree v (before v rfl)).same ?_ rfl
      show (s.ghost.devsel.put u .aHigh).look v = _
      rw [look_put, if_neg hv]
    · show (s.ghost.devsel.put u .aHigh).look (unitOf s.cmd) = .aHigh
      rw [look_put, if_pos hu.symm]
  | settle => exact h.same rfl (fun _ => rfl) (within _ hn rfl rfl) fun _ => hcyc (by rw [hp]; rfl)
  | engOff =>
    exact h.same rfl (fun _ => rfl) (within _ hn rfl ((reselects_iff next).2 (.inr hnext)))
      fun _ => hcyc (by rw [hp]; rfl)

/-- Every line of ACQUIRE in the foreground keeps the synchronisation. -/
theorem acq_sync {u : UnitId} {a : Acq} {s : State} (hu : u = unitOf s.cmd)
    (hn : s.irq = none) (hp : s.fg = .acq a) (hf : a.FrameOk s u) (h : SyncOk s) :
    SyncOk (fgAcquire u a s) := by
  obtain ⟨hagree, -⟩ := (syncOk_iff s).1 h
  have hfr := acqStep_frame u a s
  have hirq : (fgAcquire u a s).irq = none := (fgAcquire_frame u a s).1.irq.trans hn
  have hcmd : (fgAcquire u a s).cmd = s.cmd := (fgAcquire_frame u a s).1.cmd
  have hcyc : (fgAcquire u a s).fg.cycled = false := by
    obtain ⟨a', e⟩ | ⟨ch, e⟩ := fgAcquire_fg u a s <;> rw [e] <;> rfl
  refine (syncOk_iff _).2 ⟨fun v hr => ?_, fun ht => by rw [hcyc] at ht; cases ht⟩
  rw [reselecting_fg hirq, hcmd, fgAcquire_eq, State.goto_fg] at hr
  rw [fgAcquire_eq]
  by_cases hv : v = u
  · subst hv
    refine acqStep_agrees hf (fun ha => hagree v fun hs => ?_) fun a' hnext => ?_
    · rw [reselecting_fg hn, hp] at hs
      exact absurd hs.2 (by simp [FgPos.reselects, ha])
    · rw [hnext] at hr
      simpa [FgPos.reselects, hu] using hr
  · refine (hagree v fun hs => hv ?_).same (hfr.devsel v hv) (by rw [State.goto_units, hfr.units v hv])
    rw [hu, ((reselecting_fg hn v).1 hs).1]

/-- Every line of a command keeps the synchronisation. -/
theorem CommandLine.sync {i : Instr} {u : UnitId} {s t : State} (hl : CommandLine i u s t)
    (hu : u = unitOf s.cmd) (hn : s.irq = none) (hcount : CountOk s) (h : SyncOk s) : SyncOk t := by
  have keep (hp : s.fg.reselects = false) (hd : t.ghost.devsel = s.ghost.devsel)
      (hA : ∀ u : UnitId, (t.units.look u).nextA = (s.units.look u).nextA)
      (hc : t.fg.cycled = false) : SyncOk t :=
    h.same hd hA (fun v hv => by rw [reselecting_fg hn, hp] at hv; cases hv.2)
      fun ht => by rw [hc] at ht; cases ht
  cases hl with
  | fail _ hp | answer _ hp | readStart hp | pollEnter hp | pollBusy hp | pollReady hp
  | nbreadStart hp | acqExit _ hp | acqDone _ hp | pollAgain hp | armFail hp | attachExit _ hp
  | attachDone _ hp | deregEnter hp | deregSlot hp | deregClear _ hp | deregExit hp | iattStart hp
  | pwrEnter hp => exact keep (by rw [hp]; rfl) rfl (fun _ => rfl) rfl
  | setEnB _ hp | setGain _ hp | initPins hp | clearedDone hp | clearedReset hp | arm _ hp =>
    exact keep (by rw [hp]; rfl) rfl (look_put_congr UnitBank.nextA rfl) rfl
  | detachBusy hp | detachReady hp =>
    obtain ⟨hp | hp, -⟩ | hp := hp <;> exact keep (by rw [hp]; rfl) rfl (fun _ => rfl) rfl
  | resetDetached hp => obtain hp | hp := hp <;> exact keep (by rw [hp]; rfl) rfl (fun _ => rfl) rfl
  | pwrExit hp =>
    refine h.same rfl (fun _ => rfl) (fun v hv => ?_) fun _ => ?_
    · rw [reselecting_fg hn] at hv
      rw [reselecting_fg (s := s.unmask.goto .defaults) hn]
      exact ⟨hv.1, rfl⟩
    · exact ((syncOk_iff s).1 h).2 (by rw [hp]; rfl)
  | defaults hp => exact h.setNextA hn hu (by rw [hp]; rfl) rfl rfl rfl rfl
  | attachNext hp => exact h.setNextA hn hu (by rw [hp]; rfl) rfl rfl rfl rfl
  | acq a hp => exact acq_sync hu hn hp (hu ▸ hcount.fg a hp) h
  | pwr q next hp hi =>
    exact pwr_sync hu hn hp (by obtain ⟨-, rfl⟩ | ⟨-, rfl⟩ := hi <;> rfl) h

/-- At a preemption point past a power cycle, which is the line of the defaults, the unit of the foreground
is detached, so a dispatch is of another one. -/
theorem dispatch_other {s : State} {p : IrqPos} (hmask : MaskOk s) (hreg : RegistryOk s)
    (hp : s.irq = some p) (hc : s.fg.cycled = true) : unitOf s.cmd ≠ p.unit := by
  have hpre := hmask.2 (by rw [hp]; rfl)
  have hk := hreg.2.knows
  have hf : s.fg = .defaults := by
    cases hf : s.fg with
    | defaults => rfl
    | pwr _ | pwrExit | attachNext => rw [hf] at hpre; cases hpre
    | _ => rw [hf] at hc; cases hc
  obtain ⟨hocc, hunit⟩ := hreg.2.dispatch p hp
  obtain ⟨hv, -⟩ := hreg.1.c p.slot p.unit hocc hunit
  rw [hf] at hk
  intro he
  rw [LineKnows, he, hv] at hk
  cases hk

/-- Every line of ACQUIRE in a dispatch keeps the synchronisation. -/
theorem dispatch_sync {s : State} {p : IrqPos} {a : Acq} (hmask : MaskOk s) (hreg : RegistryOk s)
    (hp : s.irq = some p) (hl : p.line = .acq a) (hf : a.FrameOk s p.unit) (h : SyncOk s) :
    SyncOk (irqStep p s) := by
  obtain ⟨hagree, hcyc⟩ := (syncOk_iff s).1 h
  have hfr := acqStep_frame p.unit a s
  rw [irqStep_acq p a s hl]
  refine (syncOk_iff _).2 ⟨fun v hr => ?_, fun ht => ?_⟩
  · rw [reselecting_irq rfl, not_or] at hr
    obtain ⟨hline, hfg⟩ := hr
    rw [hfr.fg, hfr.cmd] at hfg
    have hs (hc : p.unit = v → a.commits = false) : ¬ s.reselecting v := by
      rw [reselecting_irq hp, hl, not_or]
      refine ⟨fun hs => ?_, hfg⟩
      rw [IrqLine.commits, hc hs.1] at hs
      cases hs.2
    by_cases hv : v = p.unit
    · subst hv
      refine Agrees.same (acqStep_agrees hf (fun ha => hagree _ (hs fun _ => ha))
        fun a' hnext => ?_) rfl rfl
      rw [hnext] at hline
      simpa [IrqLine.commits] using hline
    · exact (hagree v (hs fun he => absurd he.symm hv)).same (hfr.devsel v hv) (by rw [hfr.units v hv])
  · show (acqStep p.unit a s).2.ghost.devsel.look (unitOf (acqStep p.unit a s).2.cmd) = .aHigh
    have hc : s.fg.cycled = true := hfr.fg ▸ ht
    rw [hfr.cmd, hfr.devsel _ (dispatch_other hmask hreg hp hc)]
    exact hcyc hc

/-- Every move keeps the synchronisation of rule R70. -/
theorem Move.sync {s t : State} (hm : Move s t) (hmask : MaskOk s) (hreg : RegistryOk s)
    (hcount : CountOk s) (h : SyncOk s) : SyncOk t := by
  obtain ⟨hagree, hcyc⟩ := (syncOk_iff s).1 h
  cases hm with
  | outside | drive => exact ⟨h.agrees, h.cycled⟩
  | accept w r hp =>
    refine h.same rfl (fun _ => rfl) (fun u hr => ?_) (nomatch ·)
    cases hq : s.irq with
    | none =>
      rw [reselecting_fg hq, hp] at hr
      cases hr.2
    | some q =>
      rw [reselecting_irq hq, hp] at hr
      exact (reselecting_irq (s := { s.accept w with resp := r }) hq u).2
        (.inl (hr.resolve_right fun hf => nomatch hf.2))
  | powerOn =>
    refine (syncOk_iff _).2 ⟨fun u _ hu => ?_, (nomatch ·)⟩
    simp [State.powerOnReset] at hu
  | dispatch p a hp hl => exact dispatch_sync hmask hreg hp hl (hcount.irq p a hp hl) h
  | exit p hp hl =>
    refine h.same rfl (fun _ => rfl) (fun u hr => ?_) hcyc
    rw [reselecting_irq hp, hl] at hr
    exact (reselecting_fg (s := s.irqExit) rfl u).2 (hr.resolve_left fun hf => nomatch hf.2)
  | enter j hr =>
    obtain ⟨hn, -⟩ := (irqReady_eq_some s j).1 hr
    refine h.same rfl (fun _ => rfl) (fun u hs => ?_) hcyc
    exact (reselecting_irq (s := s.irqEnter j) rfl u).2 (.inr ((reselecting_fg hn u).1 hs))
  | illegal e hn hp =>
    refine h.same rfl (fun _ => rfl) (fun u hr => ?_) (nomatch ·)
    rw [reselecting_fg hn, hp] at hr
    cases hr.2
  | command i _ hn _ _ _ hl => exact hl.sync rfl hn hcount h

/-! ### The whole invariant -/

/-- The event taken off is no part of the invariant. -/
theorem Inv.popEvent {s : State} (h : Inv s) : Inv s.popEvent where
  params := h.params
  position := h.position
  mask := h.mask
  engine := h.engine
  pins := h.pins
  registry := (RegistryOk.popEvent ⟨h.registry, h.lines⟩).1
  lines := (RegistryOk.popEvent ⟨h.registry, h.lines⟩).2
  raw := h.raw
  status := h.status
  counts := ⟨h.counts.bits, h.counts.extras, h.counts.irq, h.counts.fg⟩
  sync := ⟨h.sync.agrees, h.sync.cycled⟩

/-- Every move keeps the invariant. -/
theorem Move.inv {s t : State} (hm : Move s t) (h : Inv s) : Inv t := by
  have hreg : RegistryOk s := ⟨h.registry, h.lines⟩
  exact
    { params := hm.params ▸ h.params
      position := hm.position h.position
      mask := hm.mask h.mask
      engine := hm.engine h.mask h.engine
      pins := hm.pins h.mask h.pins
      registry := (hm.registry hreg).1
      lines := (hm.registry hreg).2
      raw := hm.raw h.raw
      status := hm.status h.status
      counts := hm.counts h.mask h.counts
      sync := hm.sync h.mask hreg h.counts h.sync }

/-- Settles O50: the position answers the step, and every move keeps each part of the invariant. -/
theorem stepKeepsInvariant : Obligations.StepKeepsInvariant := by
  intro s h
  obtain ⟨t, ht⟩ := step_answers h.position
  exact ⟨t, ht, (step_move ht).inv h.popEvent⟩

end Sys2Proof.Machine
end

section
/-! PROOFS. The accesses the block rejects, and that no two acquisitions overlap. -/

namespace Sys2Proof.Machine

/-- Settles O42: a rejected access starts inside the window and reaches no register, and one wholly outside
starts outside. -/
theorem busErrorsR36R37 : Obligations.BusErrorsR36R37 := by
  intro s addr n v rest e he h
  rw [step_cons h]
  refine ⟨fun hlo hhi _ hbad => ⟨0, ?_, fun _ => rfl⟩, fun hout => ?_⟩
  · have hr : ¬ (n = 4 ∧ RegisterOffset (addr - s.params.base)) := by omega
    exact perform_busError (s := { s with sched := rest }) he ⟨hlo, hhi⟩ hr
  · have hw : ¬ (s.params.base ≤ addr ∧ addr < s.params.base + 64) := by omega
    exact perform_outside (s := { s with sched := rest }) he hw

/-- A dispatch runs masked, and so does FG off its preemption points (rules R106, R113). -/
theorem MaskOk.masked {s : State} (h : MaskOk s)
    (hrun : s.irq.isSome = true ∨ s.fg.preemptible = false) : s.im = true := by
  obtain hirq | hfg := hrun
  · rw [h.1, hirq, Bool.true_or]
  · rw [h.1, hfg, Bool.not_false, Bool.or_true]

/-- At a line of ACQUIRE or PWRCYCLE FG stands off its preemption points (rule R106). -/
theorem not_preemptible_of_acq_or_pwr {p : FgPos} (h : (∃ a, p = .acq a) ∨ ∃ q, p = .pwr q) :
    p.preemptible = false := by
  obtain ⟨_, rfl⟩ | ⟨_, rfl⟩ := h <;> rfl

/-- Settles O53: an acquisition or a power cycle runs masked, and a dispatch finds FG at a preemption point,
which is no line of either. -/
theorem acquisitionsNeverOverlap : Obligations.AcquisitionsNeverOverlap := by
  intro s h
  refine ⟨fun hrun => ?_, fun hirq => ?_⟩
  · have him : s.im = true := h.masked (hrun.imp_right not_preemptible_of_acq_or_pwr)
    exact ⟨him, irqReady_none_of_im s him⟩
  · have hfg : ¬ ((∃ a, s.fg = .acq a) ∨ ∃ q, s.fg = .pwr q) := fun hl =>
      Bool.false_ne_true ((not_preemptible_of_acq_or_pwr hl).symm.trans (h.2 hirq))
    exact ⟨fun a ha => hfg (.inl ⟨a, ha⟩), fun q hq => hfg (.inr ⟨q, hq⟩)⟩

end Sys2Proof.Machine
end

section
/-! PROOFS. The command word: the round trips of the decoder and the encoder, the fields of a decoded word, and the classes of rule R59. -/

namespace Sys2Proof.Machine

/-! ### From a command to its word and back -/

/-- The 32-bit table word of a command word is decoded as it stands. -/
theorem decodeTableWord_word (w : Word) : decodeTableWord 32 w.toNat = (decode w).toOption := by
  rw [decodeTableWord, Nat.mod_eq_of_lt w.isLt, if_pos w.isLt, BitVec.ofNat_toNat, BitVec.setWidth_eq]

/-- Settles O1: `decode_encode`, on the word and on the table word. -/
theorem decodeOfEncode : Obligations.DecodeOfEncode := by
  intro i
  refine ⟨decode_encode i, ?_⟩
  rw [decodeTableWord_word, decode_encode]
  rfl

/-! ### The fields of a decoded word -/

/-- Bit 12 of a command's word: `ENB`'s operand and `GAIN`'s, 0 in every other command (rule R54). -/
def Instr.bit12 : Instr → Bool
  | .enb _ b => b
  | .gain _ g => g.bit
  | _ => false

/-- Bit 13 of a command's word: `GRAW`'s channel, 0 in every other command (rule R54). -/
def Instr.bit13 : Instr → Bool
  | .graw _ ch => ch.bit
  | _ => false

/-- The encoder puts together the opcode, the unit and the two bits. -/
theorem encode_eq_assemble (i : Instr) :
    encode i = assemble i.opcode (Instr.workUnit i) (Instr.bit12 i) (Instr.bit13 i) := by
  cases i <;> rfl

/-- A decoded word is selected by its command's opcode and meets the command's row. -/
theorem decode_row {w : Word} {i : Instr} (h : decode w = .ok i) :
    select i.opcode w = some i ∧ w &&& maskOf i.opcode = BitVec.ofNat 32 i.opcode :=
  decode_opcode w i h ▸ decode_ok w i h

/-- A bit above the opcode that the command's row does not use is 0 in a decoded word (rule R55). -/
theorem decode_unused {w : Word} {i : Instr} (h : decode w = .ok i) {m : Nat} (hm : 6 ≤ m)
    (hmask : (maskOf i.opcode).getLsbD m = true) : w.getLsbD m = false := by
  have hopc : i.opcode < 2 ^ 6 := decode_opcode w i h ▸ opcOf_lt w
  have hbit : (w &&& maskOf i.opcode).getLsbD m = false := by
    rw [(decode_row h).2, BitVec.getLsbD_ofNat, testBit_of_lt hopc hm, Bool.and_false]
  rwa [BitVec.getLsbD_and, hmask, Bool.and_true] at hbit

/-- `GAIN`'s operand is bit 12 (rule R54). -/
theorem bit_gainOf (w : Word) : (gainOf w).bit = w.getLsbD 12 := by
  unfold gainOf; split <;> simp_all [Gain.bit]

/-- `GRAW`'s operand is bit 13 (rule R54). -/
theorem bit_chOf (w : Word) : (chOf w).bit = w.getLsbD 13 := by
  unfold chOf; split <;> simp_all [Channel.bit]

/-- A command that uses bit 12 was given it by the decoder; in any other row the mask holds it 0. -/
theorem decode_bit12 {w : Word} {i : Instr} (h : decode w = .ok i) :
    Instr.bit12 i = w.getLsbD 12 := by
  have hsel := (decode_row h).1
  cases i with
  | enb u b => cases hsel; rfl
  | gain u g => cases hsel; exact bit_gainOf w
  | _ => exact (decode_unused h (by decide) (by simp [maskOf, Instr.opcode])).symm

/-- A command that uses bit 13 was given it by the decoder; in any other row the mask holds it 0. -/
theorem decode_bit13 {w : Word} {i : Instr} (h : decode w = .ok i) :
    Instr.bit13 i = w.getLsbD 13 := by
  have hsel := (decode_row h).1
  cases i with
  | graw u ch => cases hsel; exact bit_chOf w
  | _ => exact (decode_unused h (by decide) (by simp [maskOf, Instr.opcode])).symm

/-- Settles O3: the decoder's opcode and unit, and the two bits that carry the other operands. -/
theorem operandFieldsR54 : Obligations.OperandFieldsR54 := by
  intro w i h
  refine ⟨(decode_opcode w i h).trans (opcOf_eq w),
    fun u hu => decode_unit w i u h hu ▸ unitOf_val w, ?_, ?_, ?_⟩
  · rintro u b rfl
    exact decode_bit12 h
  · rintro u g rfl
    rw [← decode_bit12 h]
    cases g <;> rfl
  · rintro u ch rfl
    rw [← decode_bit13 h]
    cases ch <;> rfl

/-! ### From a word to its command and back -/

/-- A bit of no field of the command word (rule R53). -/
abbrev ReservedBit (m : Nat) : Prop := 6 ≤ m ∧ m < 8 ∨ 14 ≤ m

/-- Bits 7:6 and 31:14 are reserved in every row (rules R53, R55). -/
theorem maskOf_reserved (n : Nat) {m : Nat} (hm : m < 32) (hr : ReservedBit m) :
    (maskOf n).getLsbD m = true := by
  have hmask : maskOf n &&& 0xFFFFC0C0 = 0xFFFFC0C0 := by unfold maskOf; split <;> rfl
  have hbit : (0xFFFFC0C0 : Word).getLsbD m = true := by revert m; decide
  rw [← hmask, BitVec.getLsbD_and, Bool.and_eq_true] at hbit
  exact hbit.1

/-- The bits of `OPC` (rule R53). -/
theorem opcOf_getLsbD (w : Word) (m : Nat) :
    (BitVec.ofNat 32 (opcOf w)).getLsbD m =
      (decide (m < 32) && (decide (m < 6) && w.getLsbD m)) := by
  rw [BitVec.getLsbD_ofNat, opcOf, BitVec.testBit_toNat, BitVec.getLsbD_extractLsb', Nat.zero_add]

/-- The bits of `UNIT` (rule R53). -/
theorem unitOf_testBit (w : Word) (m : Nat) :
    (unitOf w).val.testBit m = (decide (m < 4) && w.getLsbD (8 + m)) :=
  (BitVec.testBit_toNat _).trans (BitVec.getLsbD_extractLsb' 8 4 w m)

/-- A word whose reserved bits are 0 is put together from its four fields (rule R53): every other bit lies
in exactly one of them. -/
theorem assemble_fields (w : Word) (hres : ∀ m, ReservedBit m → w.getLsbD m = false) :
    assemble (opcOf w) (unitOf w) (w.getLsbD 12) (w.getLsbD 13) = w := by
  refine BitVec.eq_of_getLsbD_eq fun m hm => ?_
  rw [assemble, BitVec.getLsbD_or, BitVec.getLsbD_or, BitVec.getLsbD_or, opcOf_getLsbD,
    field_getLsbD, unitOf_testBit, bitAt_getLsbD, bitAt_getLsbD]
  by_cases hr : ReservedBit m
  · have hout : ¬ m < 6 ∧ ¬ (8 ≤ m ∧ m - 8 < 4) ∧ m ≠ 12 ∧ m ≠ 13 := by omega
    grind
  · have hin : m < 6 ∨ 8 ≤ m ∧ m < 12 ∨ m = 12 ∨ m = 13 := by omega
    rcases hin with hopc | hunit | rfl | rfl
    · grind
    · grind
    · simp
    · simp

/-- Settles O2: the fields of the word are the command's, and its reserved bits are 0. -/
theorem encodeOfDecode : Obligations.EncodeOfDecode := by
  intro w i h
  rw [encode_eq_assemble, decode_opcode w i h, decode_workUnit h, decode_bit12 h, decode_bit13 h]
  refine assemble_fields w fun m hr => ?_
  by_cases hm : m < 32
  · exact decode_unused h (by omega) (maskOf_reserved _ hm hr)
  · exact BitVec.getLsbD_of_ge w m (by omega)

/-! ### The classes of rule R59 -/

/-- An opcode from 0x0E on is in no row (rule R55). -/
theorem select_illegal {n : Nat} (hn : 0x0E ≤ n) (w : Word) : select n w = none := by
  cases h : select n w with
  | none => rfl
  | some i => exact absurd (select_opcode n w i h).2 (by omega)

/-- Every opcode below 0x0E has a row (rule R55). -/
theorem select_legal {n : Nat} (hn : n < 0x0E) (w : Word) : ∃ i, select n w = some i := by
  interval_cases n <;> exact ⟨_, rfl⟩

/-- Class 1 of rule R59. -/
theorem decode_illegal {w : Word} (hn : 0x0E ≤ opcOf w) : decode w = .error .opc := by
  rw [decode, select_illegal hn]

/-- Class 2 of rule R59. -/
theorem decode_reserved {w : Word} (hn : opcOf w < 0x0E)
    (hm : w &&& maskOf (opcOf w) ≠ BitVec.ofNat 32 (opcOf w)) : decode w = .error .rsvd := by
  obtain ⟨i, hi⟩ := select_legal hn w
  simp only [decode, hi, if_neg hm]

/-- Class 3 of rule R59. -/
theorem decode_wellFormed {w : Word} (hn : opcOf w < 0x0E)
    (hm : w &&& maskOf (opcOf w) = BitVec.ofNat 32 (opcOf w)) : ∃ i, decode w = .ok i := by
  obtain ⟨i, hi⟩ := select_legal hn w
  exact ⟨i, by simp only [decode, hi, if_pos hm]⟩

/-- Settles O4: each class is one answer of the decoder, which the first microstep turns into an error or
into the command. -/
theorem wordClassesR59 : Obligations.WordClassesR59 := by
  refine ⟨fun s hs ⟨he, hn, hr⟩ => ?_, fun w h => (encodeOfDecode w .nop h).symm⟩
  rw [← opcOf_eq, step_foreground s he hn hr]
  refine ⟨fun hopc => foreground_error s.popEvent .opc hs (decode_illegal hopc),
    fun hopc hm => foreground_error s.popEvent .rsvd hs (decode_reserved hopc hm), fun hopc hm => ?_⟩
  obtain ⟨i, hi⟩ := decode_wellFormed hopc hm
  have hidle : s.popEvent.fg ≠ .idle := by rw [State.popEvent_fg, hs]; decide
  exact ⟨i, decode_opcode _ i hi, encodeOfDecode _ i hi, foreground_ok s.popEvent i hidle hi⟩

/-- Settles O5: the decoder run on the fourteen words. -/
theorem specWordsDecode : Obligations.SpecWordsDecode := by
  unfold Obligations.SpecWordsDecode
  decide

end Sys2Proof.Machine
end

section
/-! PROOFS. The lines of the engine's microprograms in the foreground commands, and the two invariants of the
engine that stand as statements of their own. -/

namespace Sys2Proof.Machine

/-! ### The invariants of rules R70 and R78 -/

/-- The counts do not speak of the interleaving. -/
theorem CountOk.popEvent {s : State} (h : CountOk s) : CountOk s.popEvent :=
  ⟨h.bits, h.extras, h.irq, h.fg⟩

/-- The synchronisation property does not speak of the interleaving. -/
theorem SyncOk.popEvent {s : State} (h : SyncOk s) : SyncOk s.popEvent :=
  ⟨h.agrees, h.cycled⟩

/-- Settles O59: every move keeps `SyncOk`, under the mask, the registry and the counts. -/
theorem stepKeepsSynchronisation : Obligations.StepKeepsSynchronisation := by
  intro s t _ hmask h29 hlines hcount hsync hst
  have hreg : RegistryOk s.popEvent := RegistryOk.popEvent ⟨h29, hlines⟩
  exact (step_move hst).sync hmask hreg hcount.popEvent hsync.popEvent

/-- Settles O57: every move keeps `PinsOk`, under the mask. -/
theorem stepKeepsClockIdleLow : Obligations.StepKeepsClockIdleLow :=
  fun _ _ _ hmask hpins hst => (step_move hst).pins hmask hpins

/-! ### PWRCYCLE in the foreground (rule R77) -/

/-- The commands that run PWRCYCLE run its own microstep at each of its lines. -/
theorem exec_pwr {i : Instr} {u : UnitId} {next : FgPos} {q : Pwr} {s : State}
    (hi : AfterPowerCycle i u next) (hp : s.fg = .pwr q) :
    exec i s = .next (fgPowerCycle u next q s) := by
  obtain ⟨rfl | rfl, rfl⟩ | ⟨rfl, rfl⟩ := hi
  · simp only [exec, execInit, hp, resetLine, ofLine]
  · simp only [exec, execReset, hp, resetLine, ofLine]
  · simp only [exec, execIatt, hp]

/-- The line after PWRCYCLE, chosen by the command. -/
theorem afterPowerCycle_ite {i : Instr} {u : UnitId} (hi : i = .reset u ∨ i = .init u ∨ i = .iatt u) :
    AfterPowerCycle i u (if i = .iatt u then .attachNext else .pwrExit) := by
  obtain rfl | rfl | rfl := hi
  · exact .inl ⟨.inr rfl, rfl⟩
  · exact .inl ⟨.inl rfl, rfl⟩
  · exact .inr ⟨rfl, if_pos rfl⟩

/-- Settles O16: each line is PWRCYCLE's own, and the last one leads to the command's next. -/
theorem powerCycleLines : Obligations.PowerCycleLines := by
  intro s u i hi
  have line (q : Pwr) (hp : s.fg = .pwr q) := exec_pwr (afterPowerCycle_ite hi) hp
  exact ⟨line .engOn, line .high, line .hold, line .low, line .settle, line .engOff⟩

/-! ### EXCHANGE in the foreground (rule R72) -/

/-- The commands that run ACQUIRE in the foreground run its own microstep at each of its lines. -/
theorem exec_acq {i : Instr} {u : UnitId} {a : Acq} {s : State} (hi : Acquires i u)
    (hp : s.fg = .acq a) : exec i s = .next (fgAcquire u a s) := by
  obtain rfl | rfl := hi
  · simp only [exec, execRead, hp]
  · simp only [exec, execNbread, hp]

/-- Dropping the top bit and appending one at the bottom is a shift by one and an or. -/
theorem shiftIn_eq (v : BitVec 24) (b : Bool) :
    shiftIn v b = v <<< 1 ||| (if b = true then 1 else 0) := by
  refine BitVec.eq_of_getLsbD_eq fun n hn => ?_
  rw [shiftIn, BitVec.getLsbD_append]
  cases n with
  | zero => cases b <;> simp
  | succ m =>
    have hm : m < 23 := by omega
    cases b <;> simp [hn, hm, -BitVec.getLsbD_eq_getElem]

/-- Settles O25: each line is EXCHANGE's own; `shiftIn_eq` gives the shift, and the free counts lie in their
ranges by their types. -/
theorem exchangeLines : Obligations.ExchangeLines := by
  intro s u i f hi
  have line (x : Exch) (hp : s.fg = .acq (.exch f x)) := exec_acq hi hp
  refine ⟨line .clear, line .dataHigh, line .dataSettle, line .dataSample, fun b => line (.dataLow b),
    fun b => line (.dataRest b), fun b hp => ?_, line .extraHigh, line .extraSettle, line .extraLow,
    line .extraRest, fun hp => ?_⟩
  · rw [← shiftIn_eq]
    exact line (.dataShift b) hp
  · exact ⟨_, _, _, Nat.le_of_lt_succ (Config.freeBitcnt s.ghost.draws).isLt,
      Nat.le_of_lt_succ (Config.freeXcnt s.ghost.draws).isLt, line .ret hp⟩

end Sys2Proof.Machine
end

section
/-! PROOFS. The lines of the unit configuration commands NOP, ENB, GAIN, INIT and RESET, and of the
DETACH_BODY that RESET_BODY shares with IDET. -/

namespace Sys2Proof.Machine

/-! ### The checks of a command (rule R102) -/

/-- An existing unit passes the check of a command that asks for no more: its first line runs. -/
theorem checkUnit_passes {s : State} {u : UnitId} (hu : u.val < s.params.nunits) (t : State) :
    checked (checkUnit s u) s t = t := by
  rw [(checkUnit_eq_none s u).2 hu]
  rfl

/-- A unit that does not exist raises `E_UNIT`. -/
theorem checkUnit_fails {s : State} {u : UnitId} (hu : s.params.nunits ≤ u.val) (t : State) :
    checked (checkUnit s u) s t = s.raise .unit := by
  rw [checkUnit, if_pos hu]
  rfl

/-- A configured unit passes the checks of a command that asks for one. -/
theorem checkCfg_passes {s : State} {u : UnitId} (hu : u.val < s.params.nunits)
    (hc : (s.units.look u).cfg = true) (t : State) : checked (checkCfg s u) s t = t := by
  rw [(checkCfg_eq_none s u).2 ⟨hu, hc⟩]
  rfl

/-! ### Commands of one microstep (rules R80, R83, R84) -/

theorem exec_nop {s : State} (hp : s.fg = .start) : exec .nop s = .next (s.complete 0) := by
  simp only [exec, execNop, hp]

theorem exec_enb {s : State} {u : UnitId} {b : Bool} (hp : s.fg = .start) :
    exec (.enb u b) s =
      .next (checked (checkUnit s u) s ((s.modUnit u ({ · with enB := b })).complete 0)) := by
  simp only [exec, execEnb, hp]

theorem exec_gain {s : State} {u : UnitId} {g : Gain} (hp : s.fg = .start) :
    exec (.gain u g) s =
      .next (checked (checkUnit s u) s ((s.modUnit u ({ · with gain := g })).complete 0)) := by
  simp only [exec, execGain, hp]

/-- Settles O9: NOP's one line is `complete(0)`. -/
theorem nopCompletes : Obligations.NopCompletes := fun _ hp => exec_nop hp

/-- Settles O10: an existing unit passes the check and the flag is written; any other fails it. -/
theorem enbGainWriteTheirFlag : Obligations.EnbGainWriteTheirFlag := by
  intro s u b g hp
  rw [exec_enb hp, exec_gain hp]
  constructor
  · intro hu
    rw [checkUnit_passes hu, checkUnit_passes hu]
    exact ⟨rfl, rfl⟩
  · intro hu
    rw [checkUnit_fails hu, checkUnit_fails hu]
    exact ⟨rfl, rfl⟩

/-! ### The lines of INIT and RESET (rules R81, R82, R94) -/

theorem exec_initStart {s : State} {u : UnitId} (hp : s.fg = .start) :
    exec (.init u) s = .next (checked (checkUnit s u) s (initStart u s)) := by
  simp only [exec, execInit, hp]

/-- Settles O13: an existing unit passes the one check, and INIT's first line runs; any other fails it. -/
theorem initDrivesClockLow : Obligations.InitDrivesClockLow := by
  intro s u hp
  rw [exec_initStart hp]
  constructor
  · intro hu
    rw [checkUnit_passes hu]
    rfl
  · intro hu
    rw [checkUnit_fails hu]
    rfl

/-- Where RESET_BODY begins: the first microstep of RESET, on a unit that passes its checks, or INIT's line
after its yield (rules R81, R82). -/
abbrev AtResetBody (i : Instr) (u : UnitId) (s : State) : Prop :=
  (i = .reset u ∧ s.fg = .start ∧ u.val < s.params.nunits ∧ (s.units.look u).cfg = true) ∨
    (i = .init u ∧ s.fg = .resetBody)

theorem exec_resetStart {i : Instr} {u : UnitId} {s : State} (h : AtResetBody i u s) :
    exec i s = .next (resetStart u s) := by
  obtain ⟨rfl, hp, hu, hc⟩ | ⟨rfl, hp⟩ := h
  · simp only [exec, execReset, hp, checkCfg_passes hu hc]
  · simp only [exec, execInit, hp]

/-- A unit that is not attached goes on to the power cycle. -/
theorem resetStart_detached {s : State} {u : UnitId} (hv : (s.units.look u).slotV = false) :
    resetStart u s = s.goto .pwrEnter := by
  simp [resetStart, detachStart, hv]

/-- An attached unit is deregistered once no acquisition of it is in progress. -/
theorem resetStart_ready {s : State} {u : UnitId} (hv : (s.units.look u).slotV = true)
    (hh : (s.units.look u).inH = false) : resetStart u s = s.goto .deregEnter := by
  simp [resetStart, detachStart, detachWait, hv, hh]

/-- An attached unit with an acquisition in progress is waited for. -/
theorem resetStart_busy {s : State} {u : UnitId} (hv : (s.units.look u).slotV = true)
    (hh : (s.units.look u).inH = true) :
    resetStart u s = (s.wait s.params.tPoll).goto .detWait := by
  simp [resetStart, detachStart, detachWait, hv, hh]

/-- The commands that run RESET_BODY run its own microstep at each of its lines after the first. -/
theorem exec_resetLine {i : Instr} {u : UnitId} {p : FgPos} {s : State} (hi : Resets i u)
    (hp : s.fg = p) (hr : p.inReset = true) : exec i s = ofLine (resetLine u p s) := by
  subst hp
  obtain rfl | rfl := hi
  · change execInit u s = _
    unfold execInit
    split
    · next hp => rw [hp] at hr; cases hr
    · next hp => rw [hp] at hr; cases hr
    · rfl
  · change execReset u s = _
    unfold execReset
    split
    · next hp => rw [hp] at hr; cases hr
    · rfl

/-- Settles O14: the line is RESET_BODY's own. -/
theorem resetDefaultsLine : Obligations.ResetDefaultsLine :=
  fun _ _ _ hi hp => exec_resetLine hi.symm hp rfl

/-- Settles O15: the start of RESET_BODY by its three cases, and its own lines around the power cycle. -/
theorem resetLines : Obligations.ResetLines := by
  intro s u i hi
  refine ⟨fun hat => ?_, fun hp => exec_resetLine hi.symm hp rfl,
    fun hp => exec_resetLine hi.symm hp rfl⟩
  rw [exec_resetStart hat]
  refine ⟨fun hv => ?_, fun hv hh => ?_, fun hv hh => ?_⟩
  · rw [resetStart_detached hv]
    rfl
  · rw [resetStart_ready hv hh]
    rfl
  · rw [resetStart_busy hv hh]
    rfl

/-- What follows DETACH_BODY in each command that runs it (rules R82, R94). -/
abbrev AfterDetach (i : Instr) (u : UnitId) (after : State → State) : Prop :=
  (Resets i u ∧ after = (·.goto .pwrEnter)) ∨ (i = .idet u ∧ after = (·.complete 1))

/-- RESET_BODY's lines inside its DETACH_BODY are that body's. -/
theorem resetLine_detach {u : UnitId} {p : FgPos} {s : State} (hd : p.inDetach = true) :
    resetLine u p s = detachLine u (·.goto .pwrEnter) p s := by
  cases p with
  | pwrEnter | pwr | pwrExit | defaults => cases hd
  | _ => rfl

/-- DETACH_BODY's lines are lines of RESET_BODY. -/
theorem inReset_of_inDetach {p : FgPos} (hd : p.inDetach = true) : p.inReset = true := by
  cases p with
  | pwrEnter | pwr | pwrExit | defaults => rfl
  | _ => exact hd

/-- The commands that run DETACH_BODY run its own microstep at each of its lines after the first. -/
theorem exec_detachLine {i : Instr} {u : UnitId} {after : State → State} {p : FgPos} {s : State}
    (hi : AfterDetach i u after) (hp : s.fg = p) (hd : p.inDetach = true) :
    exec i s = ofLine (detachLine u after p s) := by
  obtain ⟨hr, rfl⟩ | ⟨rfl, rfl⟩ := hi
  · rw [exec_resetLine hr hp (inReset_of_inDetach hd), resetLine_detach hd]
  · subst hp
    change execIdet u s = _
    unfold execIdet
    split
    · next hp => rw [hp] at hd; cases hd
    · rfl

end Sys2Proof.Machine
end

section
/-! PROOFS. A command that runs with nothing coming from outside: its microsteps one after the other, through
the deregistration, the power cycle and RESET_BODY. -/

namespace Sys2Proof.Machine

open Sys2Proof.Claims

/-! ### A command that runs alone -/

/-- Command i stands in `CMD`, nothing comes from outside, and no dispatch is running or pending; the mask is
left open. A state that differs in other fields only runs alone by the same proof. -/
abbrev RunsAlone (i : Instr) (s : State) : Prop :=
  s.cmd = encode i ∧ s.sched = [] ∧ s.irq = none ∧ ∀ j : SlotId, (s.slots.look j).pend = false

theorem popEvent_of_nil {s : State} (h : s.sched = []) : s.popEvent = s := by
  rw [State.popEvent, h, List.tail_nil, ← h]

theorem unmask_of_unmasked {s : State} (h : s.im = false) : s.unmask = s := by
  rw [State.unmask, ← h]

/-- A step of a command that runs alone is its microstep. -/
theorem step_alone {i : Instr} {s : State} (h : RunsAlone i s) (hf : s.fg ≠ .idle) :
    step s = exec i s := by
  obtain ⟨hcmd, hsched, hirq, hpend⟩ := h
  have hev : s.nextEvent = .seq := by rw [State.nextEvent, hsched]; rfl
  rw [step_foreground s hev hirq (irqReady_none_of_no_pend s hpend), popEvent_of_nil hsched]
  exact foreground_ok s i hf (hcmd ▸ decode_encode i)

/-- n steps of the machine lead from s to t. -/
def Leads (n : Nat) (s t : State) : Prop :=
  ∀ m, Host.Core.run Sys2Proof.core (m + n) s = Host.Core.run Sys2Proof.core m t

theorem Leads.trans {n m : Nat} {s t r : State} (h : Leads n s t) (h' : Leads m t r) :
    Leads (m + n) s r := fun l => by
  rw [← Nat.add_assoc]
  exact (h (l + m)).trans (h' l)

theorem Leads.run {n : Nat} {s t : State} (h : Leads n s t) :
    Host.Core.run Sys2Proof.core n s = .next t := by
  have h0 := h 0
  rwa [Nat.zero_add] at h0

/-- A microstep of a command that runs alone is one step of the machine. -/
theorem leads_alone {i : Instr} {s t : State} {p : FgPos} (h : RunsAlone i s) (hp : s.fg = p)
    (hf : p ≠ .idle) (ht : exec i s = .next t) : Leads 1 s t := fun m => by
  have hst : Sys2Proof.core.step s = .next t := (step_alone h (hp ▸ hf)).trans ht
  simp only [Host.Core.run, hst]

/-! ### The power cycle (rule R77) -/

/-- The state after a whole power cycle of unit u, the foreground position left as it is. -/
def State.powerCycled (s : State) (u : UnitId) : State :=
  { s with
    sck := s.sck.put u { s.sck.look u with lvl := false }
    engU := none
    ghost := { s.ghost with
      devsel := s.ghost.devsel.put u .aHigh
      elapsed := s.ghost.elapsed + s.params.tPD + s.params.tPU
      wave := pwrWave u ++ s.ghost.wave } }

/-- The six lines of PWRCYCLE one after the other: of the two writes to the clock the low one stays. -/
theorem powerCycled_eq (s : State) (u : UnitId) (next : FgPos) :
    fgPowerCycle u next .engOff (fgPowerCycle u next .settle (fgPowerCycle u next .low
      (fgPowerCycle u next .hold (fgPowerCycle u next .high (fgPowerCycle u next .engOn s))))) =
      (s.powerCycled u).goto next := by
  simp [fgPowerCycle, pwrStep, State.powerCycled, State.pinWrite, State.wait, State.goto]

/-- A line of PWRCYCLE leaves a command running alone. -/
theorem RunsAlone.powerCycle {i : Instr} {s : State} (h : RunsAlone i s) (u : UnitId) (next : FgPos)
    (q : Pwr) : RunsAlone i (fgPowerCycle u next q s) := by
  cases q <;> exact h

/-- The six microsteps of the power cycle of a command that runs alone. -/
theorem leads_powerCycle {i : Instr} {u : UnitId} {next : FgPos} {s : State} (h : RunsAlone i s)
    (hi : AfterPowerCycle i u next) (hp : s.fg = .pwr .engOn) :
    Leads 6 s ((s.powerCycled u).goto next) := by
  have line {q : Pwr} {t : State} (ht : RunsAlone i t) (hq : t.fg = .pwr q) :
      Leads 1 t (fgPowerCycle u next q t) := leads_alone ht hq nofun (exec_pwr hi hq)
  have hhigh := h.powerCycle u next .engOn
  have hhold := hhigh.powerCycle u next .high
  have hlow := hhold.powerCycle u next .hold
  have hsettle := hlow.powerCycle u next .low
  have hoff := hsettle.powerCycle u next .settle
  rw [← powerCycled_eq]
  exact (line h hp).trans <| (line hhigh rfl).trans <| (line hhold rfl).trans <|
    (line hlow rfl).trans <| (line hsettle rfl).trans (line hoff rfl)

/-! ### The deregistration (rule R94) -/

/-- Deregistering a slot leaves a command running alone. -/
theorem RunsAlone.deregister {i : Instr} {s : State} (h : RunsAlone i s) (j : SlotId) :
    RunsAlone i (s.deregister j) := by
  obtain ⟨hcmd, hsched, hirq, hpend⟩ := h
  refine ⟨hcmd, hsched, hirq, fun k => ?_⟩
  rw [State.deregister_slots, look_put]
  split
  · rfl
  · exact hpend k

/-- The five microsteps in which a command that runs alone frees the slot of its unit and detaches it. -/
theorem leads_detach {i : Instr} {u : UnitId} {after : State → State} {s : State}
    (h : RunsAlone i s) (hi : AfterDetach i u after) (hp : s.fg = .deregEnter) (him : s.im = false) :
    Leads 5 s (after
      (((s.deregister (s.units.look u).slot).goto .clearSlot).clearSlot u)) := by
  have line {p : FgPos} {t t' : State} (ht : RunsAlone i t) (hq : t.fg = p)
      (hd : p.inDetach = true) (hl : detachLine u after p t = some t') : Leads 1 t t' :=
    leads_alone ht hq (by rintro rfl; cases hd) (by rw [exec_detachLine hi hq hd, hl]; rfl)
  have hcleared := h.deregister (s.units.look u).slot
  conv => enter [3]; rw [← unmask_of_unmasked him]
  refine (line h hp rfl rfl).trans <| (line (p := .deregSlot) ?_ rfl rfl rfl).trans <|
    (line (p := .deregClear (s.units.look u).slot) ?_ rfl rfl rfl).trans <|
    (line (p := .deregExit) ?_ rfl rfl rfl).trans (line (p := .clearSlot) ?_ rfl rfl rfl)
  exacts [h, h, hcleared, hcleared]

/-! ### RESET and INIT (rules R81, R82) -/

/-- The nine microsteps from the masked power cycle to the end of a RESET or INIT that runs alone. -/
theorem leads_defaults {i : Instr} {u : UnitId} {s : State} (h : RunsAlone i s) (hi : Resets i u)
    (hp : s.fg = .pwrEnter) (him : s.im = false) :
    Leads 9 s (((s.powerCycled u).modUnit u UnitBank.defaults).complete 0) := by
  have line {p : FgPos} {t t' : State} (ht : RunsAlone i t) (hq : t.fg = p)
      (hr : p.inReset = true) (hl : resetLine u p t = some t') : Leads 1 t t' :=
    leads_alone ht hq (by rintro rfl; cases hr) (by rw [exec_resetLine hi hq hr, hl]; rfl)
  conv => enter [3]; rw [← unmask_of_unmasked him]
  refine (line h hp rfl rfl).trans <| (leads_powerCycle ?_ (.inl ⟨hi, rfl⟩) rfl).trans <|
    (line (p := .pwrExit) ?_ rfl rfl rfl).trans (line (p := .defaults) ?_ rfl rfl rfl)
  all_goals exact h

/-- An accepted command with nothing coming from outside runs alone, unmasked. -/
theorem runsAlone_of_quiet {i : Instr} {s : State} (hq : Quiet s) (ha : Accepted s i) :
    RunsAlone i s ∧ s.im = false := by
  obtain ⟨hsched, hirq, him, hpend⟩ := hq
  exact ⟨⟨ha.2, hsched, hirq, hpend⟩, him⟩

/-- Settles O29: the start of RESET_BODY, the five microsteps of DETACH_BODY for an attached unit, and the nine
from the power cycle to the defaults. -/
theorem resetRunsToDefaults : Obligations.ResetRunsToDefaults := by
  intro s u hq hacc hu hc hh t
  obtain ⟨halone, him⟩ := runsAlone_of_quiet hq hacc
  have hstart := exec_resetStart (.inl ⟨rfl, hacc.1, hu, hc⟩ : AtResetBody (.reset u) u s)
  refine ⟨fun hv => ⟨_, hstart, ?_⟩, fun hv => ⟨_, hstart, ?_⟩⟩
  · rw [resetStart_detached hv]
    exact (leads_defaults (s := s.goto .pwrEnter) halone (.inr rfl) rfl him).run
  · rw [resetStart_ready hv hh]
    have hdetach := leads_detach (s := s.goto .deregEnter) halone (.inl ⟨.inr rfl, rfl⟩) rfl him
    have hreset := hdetach.trans (leads_defaults (halone.deregister _) (.inr rfl) rfl him)
    rw [hreset.run]
    simp [t, State.powerCycled, State.modUnit, State.clearSlot, State.complete, State.goto,
      State.deregister, State.modSlot, UnitBank.defaults]

/-- Settles O30: INIT's two lines, and the nine microsteps from the power cycle to the defaults. -/
theorem initRunsToDefaults : Obligations.InitRunsToDefaults := by
  intro s u hq hacc hu hv
  obtain ⟨halone, him⟩ := runsAlone_of_quiet hq hacc
  refine ⟨initStart u s, by rw [exec_initStart hacc.1, checkUnit_passes hu], ?_⟩
  have hv' : ((initStart u s).units.look u).slotV = false := by simp [initStart, hv]
  have hstart : exec (.init u) (initStart u s) = .next ((initStart u s).goto .pwrEnter) := by
    rw [exec_resetStart (.inr ⟨rfl, rfl⟩), resetStart_detached hv']
  have hyield := leads_alone (s := initStart u s) halone rfl nofun hstart
  have hreset := leads_defaults (s := (initStart u s).goto .pwrEnter) halone (.inl rfl) rfl him
  rw [(hyield.trans hreset).run]
  simp [initStart, State.driveLow, State.powerCycled, State.modUnit, State.complete, State.goto,
    UnitBank.defaults]

end Sys2Proof.Machine
end

section
/-! PROOFS. The lines of the acquisition and query commands RDY, READ, NBREAD, ISIM, GRAW and GCNT; SELECT
and the sign extension. -/

namespace Sys2Proof.Machine

open Sys2Proof.Claims

/-! ### Commands of one microstep (rules R90, R95, R97, R98) -/

theorem exec_rdy {s : State} {u : UnitId} (hp : s.fg = .start) :
    exec (.rdy u) s = .next (checked (checkUnit s u) s (s.complete (boolWord (!s.pinRead u)))) := by
  simp only [exec, execRdy, hp]

theorem exec_isim {s : State} {u : UnitId} (hp : s.fg = .start) :
    exec (.isim u) s =
      .next (checked (checkUnit s u) s (s.complete (boolWord (s.units.look u).slotV))) := by
  simp only [exec, execIsim, hp]

theorem exec_graw {s : State} {u : UnitId} {ch : Channel} (hp : s.fg = .start) :
    exec (.graw u ch) s =
      .next (checked (checkUnit s u) s (s.complete ((s.units.look u).raw ch))) := by
  simp only [exec, execGraw, hp]

theorem exec_gcnt {s : State} {u : UnitId} (hp : s.fg = .start) :
    exec (.gcnt u) s = .next (checked (checkUnit s u) s (s.complete (s.units.look u).cnt)) := by
  simp only [exec, execGcnt, hp]

/-- `RDY` answers 1 exactly when the data line is low (rule R90). -/
theorem boolWord_not (b : Bool) : boolWord (!b) = if b = false then 1 else 0 := by
  cases b <;> rfl

/-- Settles O11: an existing unit passes the check and the value is the result; any other fails it. -/
theorem queriesReturnTheirValue : Obligations.QueriesReturnTheirValue := by
  intro s u ch hp
  rw [exec_rdy hp, exec_isim hp, exec_graw hp, exec_gcnt hp]
  constructor
  · intro hu
    simp only [checkUnit_passes hu, boolWord_not]
    exact ⟨rfl, rfl, rfl, rfl⟩
  · intro hu
    simp only [checkUnit_fails hu]
    exact ⟨rfl, rfl, rfl, rfl⟩

/-! ### The first lines of READ and NBREAD (rules R91, R92) -/

/-- A configured unit passes READ's checks: an attached one answers, any other is polled. -/
theorem exec_readStart {s : State} {u : UnitId} (hp : s.fg = .start) (hu : u.val < s.params.nunits)
    (hc : (s.units.look u).cfg = true) : exec (.read u) s = .next (readStart u s) := by
  simp only [exec, execRead, hp, checkCfg_passes hu hc]

/-- A configured unit that is not attached passes NBREAD's checks. -/
theorem exec_nbreadStart {s : State} {u : UnitId} (hp : s.fg = .start) (hu : u.val < s.params.nunits)
    (hc : (s.units.look u).cfg = true) (hv : (s.units.look u).slotV = false) :
    exec (.nbread u) s = .next (s.mask.goto (.acq .enter)) := by
  simp only [exec, execNbread, hp, (checkMode_eq_none s u).2 ⟨hu, hc, hv⟩, checked]

/-- A unit that is not attached is polled. -/
theorem readStart_detached {s : State} {u : UnitId} (hv : (s.units.look u).slotV = false) :
    readStart u s = s.goto .pollEnter := by
  simp [readStart, hv]

/-- Settles O21: READ's first line by whether the unit is attached. -/
theorem readAttachedReturnsLast : Obligations.ReadAttachedReturnsLast := by
  intro s u hp hu hc
  rw [exec_readStart hp hu hc]
  constructor
  · intro hv
    rw [readStart, if_pos hv]
    rfl
  · intro hv
    rw [readStart_detached hv]
    rfl

/-! ### The lines of READ and NBREAD around the acquisition (rules R91, R92) -/

/-- The ready check chooses between the acquisition and the end of the masked block. -/
theorem pollCheck_eq (u : UnitId) (s : State) :
    pollCheck u s = s.goto (if s.dout.look u = false then .acq .enter else .acqExit none) := by
  rw [pollCheck, State.pinRead]
  cases s.dout.look u <;> rfl

theorem exec_pollEnter {s : State} {u : UnitId} (hp : s.fg = .pollEnter) :
    exec (.read u) s = .next (s.mask.goto .pollCheck) := by
  simp only [exec, execRead, hp]

theorem exec_pollCheck {s : State} {u : UnitId} (hp : s.fg = .pollCheck) :
    exec (.read u) s = .next (pollCheck u s) := by
  simp only [exec, execRead, hp]

/-- READ and NBREAD unmask after an acquisition. -/
theorem exec_acqExit {i : Instr} {u : UnitId} {ch : Channel} {s : State} (hi : Acquires i u)
    (hp : s.fg = .acqExit (some ch)) :
    exec i s = .next (s.unmask.goto (.acqDone (some ch))) := by
  obtain rfl | rfl := hi
  · simp only [exec, execRead, hp]
  · simp only [exec, execNbread, hp]

/-- READ and NBREAD complete with the serviced channel. -/
theorem exec_acqDone {i : Instr} {u : UnitId} {ch : Channel} {s : State} (hi : Acquires i u)
    (hp : s.fg = .acqDone (some ch)) : exec i s = .next (s.complete (channelWord ch)) := by
  obtain rfl | rfl := hi
  · simp only [exec, execRead, hp]
  · simp only [exec, execNbread, hp]

/-- Settles O22: the lines are READ's own; the ready check is `pollCheck_eq`. -/
theorem readPollLines : Obligations.ReadPollLines := by
  intro s u
  refine ⟨exec_pollEnter, fun hp => ?_, fun r hp => ?_, fun hp => ?_, fun ch =>
    exec_acqDone (.inl rfl)⟩
  · rw [exec_pollCheck hp, pollCheck_eq]
    rfl
  · simp only [exec, execRead, hp]
    rfl
  · simp only [exec, execRead, hp]
    rfl

/-- Settles O24: NBREAD's checks pass, and its lines after the acquisition are those it shares with READ. -/
theorem nbreadLines : Obligations.NbreadLines := fun _ _ =>
  ⟨fun hp hu hc hv => exec_nbreadStart hp hu hc hv,
    fun _ => ⟨exec_acqExit (.inr rfl), exec_acqDone (.inr rfl)⟩⟩

/-! ### The writes of ACQUIRE (rule R88) and SELECT (rule R85) -/

/-- Settles O23: each line is ACQUIRE's own; the commit writes the reading of the serviced channel. -/
theorem acquireWrites : Obligations.AcquireWrites := by
  intro s u i hi
  have line (a : Acq) (hp : s.fg = .acq a) := exec_acq hi hp
  refine ⟨line .enter, fun f v hp => ?_, fun ch => line (.release ch)⟩
  rw [line (.commit f v) hp]
  obtain ⟨ch, nA, k⟩ := f
  cases ch <;> rfl

/-- SELECT gives the frame of rule R85's table, row by row. -/
theorem selectFrame_eq_tableFrame (b : UnitBank) :
    selectFrame b.enB b.nextA b.gain = tableFrame b := by
  unfold tableFrame
  cases b.enB <;> cases b.nextA <;> cases b.gain <;> rfl

/-- The line SELECT of ACQUIRE, with the frame of the table. -/
theorem acqStep_select (u : UnitId) (s : State) :
    acqStep u .select s = (.more (.exch (tableFrame (s.units.look u)) .clear), s) := by
  rw [acqStep, selectFrame_eq_tableFrame]

/-- Settles O27: `acqStep_select` in the foreground and in a dispatch. -/
theorem selectTableR85 : Obligations.SelectTableR85 := by
  intro s u
  constructor
  · intro hp
    rw [exec_acq (.inr rfl) hp, exec_acq (.inl rfl) hp, fgAcquire_eq, acqStep_select]
    exact ⟨rfl, rfl⟩
  · intro j hirq
    have hline := irqStep_acq ⟨j, u, .acq .select⟩ .select s rfl
    rw [acqStep_select] at hline
    simp only [sequencer, hirq, hline]

/-! ### The sign extension (rule R87) -/

/-- Settles O28: the sign extension keeps the signed value, which bit 23 tells apart; the corner values by
evaluation. -/
theorem signExtensionR87 : Obligations.SignExtensionR87 := by
  have hint (v : BitVec 24) : (sext32 v).toInt =
      if v.getLsbD 23 = true then (v.toNat : Int) - 2 ^ 24 else (v.toNat : Int) := by
    rw [sext32_eq_signExtend, BitVec.toInt_signExtend_of_le (by decide), BitVec.toInt_eq_msb_cond,
      BitVec.msb_eq_getLsbD_last]
    rfl
  refine ⟨fun v hv => ?_, fun v hv => ?_, by decide, by decide, by decide, by decide⟩
  · have hlt := v.isLt
    rw [hint, if_pos hv, sext32, if_pos hv]
    exact ⟨rfl, rfl, by omega⟩
  · have hn : ¬ v.getLsbD 23 = true := by rw [hv]; exact Bool.false_ne_true
    rw [hint, if_neg hn, sext32, if_neg hn]
    exact ⟨rfl, rfl, Int.natCast_nonneg _⟩

end Sys2Proof.Machine
end

section
/-! PROOFS. Playing the events of an interleaving one after the other, and a line of ACQUIRE as such an event,
in the foreground and in a dispatch. -/

namespace Sys2Proof.Machine

/-! ### Playing events -/

/-- The state with es as the rest of the interleaving. -/
def State.playing (s : State) (es : List Event) : State := { s with sched := es }

/-- With the events es at the head of the interleaving, whatever follows them, the machine performs them
from s and arrives at t. The interleavings of s and t themselves do not matter. -/
def Plays (es : List Event) (s t : State) : Prop :=
  ∀ rest, Leads es.length (s.playing (es ++ rest)) (t.playing rest)

theorem Plays.trans {es es' : List Event} {s t r : State} (h : Plays es s t) (h' : Plays es' t r) :
    Plays (es ++ es') s r := fun rest => by
  rw [List.length_append, Nat.add_comm, List.append_assoc]
  exact (h (es' ++ rest)).trans (h' rest)

/-- Playing no event goes nowhere. -/
theorem Plays.refl (s : State) : Plays [] s s := fun _ _ => rfl

/-- One event is played by its effect. -/
theorem plays_one {e : Event} {s t : State}
    (h : ∀ rest, perform e (s.playing rest) = .next (t.playing rest)) : Plays [e] s t :=
  fun rest m => by
    have hst : Sys2Proof.core.step (s.playing ([e] ++ rest)) = .next (t.playing rest) :=
      (step_cons rfl).trans (h rest)
    simp only [List.length_singleton, Host.Core.run, hst]

/-- A microstep of the command in `CMD`, with no dispatch running or eligible. -/
theorem plays_exec {i : Instr} {s t : State} (hcmd : s.cmd = encode i) (hirq : s.irq = none)
    (hready : s.irqReady = none) (hf : s.fg ≠ .idle)
    (h : ∀ rest, exec i (s.playing rest) = .next (t.playing rest)) : Plays [.seq] s t :=
  plays_one fun rest => by
    rcases sequencer_cases (s.playing rest) with ⟨p, hp, -⟩ | ⟨-, j, hj, -⟩ | ⟨-, -, e⟩
    · exact absurd (hirq.symm.trans hp) nofun
    · exact absurd (hready.symm.trans hj) nofun
    · have hd : decode (s.playing rest).cmd = .ok i := (congrArg decode hcmd).trans (decode_encode i)
      exact e.trans ((foreground_ok (s.playing rest) i hf hd).trans (h rest))

/-- The engine blanks the edges of the unit it operates (rule R108). -/
theorem latch_own (u : UnitId) (sl : Slot) : Slot.latch (some u) u sl = sl := by
  rw [latch_eq]
  simp

/-- When the device of the unit that the engine operates drives its line, nothing else changes. -/
theorem drive_own {s : State} {u : UnitId} (b : Bool) (hu : u.val < s.params.nunits)
    (he : s.engU = some u) : s.drive u b = { s with dout := s.dout.put u b } := by
  have hslots : mapSlots (Slot.latch (some u) u) s.slots = s.slots :=
    table_ext _ _ fun j => by rw [mapSlots_get, latch_own]
  rw [drive_eq s u b hu, he, hslots, ite_self]

/-! ### A line of ACQUIRE in either context (rules R88, R111) -/

/-- Where an acquisition runs: in the foreground command i, or in a dispatch at the IRQ position p. -/
inductive AcqContext where
  | fg (i : Instr)
  | irq (p : IrqPos)

/-- What is left of an acquisition as a foreground position (rules R91, R92). -/
def AcqNext.fgPos : AcqNext → FgPos
  | .more a => .acq a
  | .done ch => .acqExit (some ch)

/-- What is left of an acquisition as a line of the dispatch body (rule R111). -/
def AcqNext.irqLine : AcqNext → IrqLine
  | .more a => .acq a
  | .done _ => .exit

/-- The state in which the context is the one that moves, with what is left of its acquisition as its
position. -/
def AcqContext.place (c : AcqContext) (n : AcqNext) (s : State) : State :=
  match c with
  | .fg i => { s with cmd := encode i, irq := none, fg := n.fgPos }
  | .irq p => { s with irq := some { p with line := n.irqLine } }

/-- In the foreground command i only the position is placed. -/
theorem AcqContext.place_fg {i : Instr} {s : State} (n : AcqNext) (hcmd : s.cmd = encode i)
    (hirq : s.irq = none) : (AcqContext.fg i).place n s = s.goto n.fgPos := by
  rw [AcqContext.place, ← hcmd, ← hirq]
  rfl

/-- The acquisition of the context is one of unit u. -/
def AcqContext.Of (c : AcqContext) (u : UnitId) : Prop :=
  match c with
  | .fg i => Acquires i u
  | .irq p => p.unit = u

/-- A line of ACQUIRE neither reads nor writes the context's position and the interleaving. -/
theorem acqStep_place (c : AcqContext) (n : AcqNext) (u : UnitId) (a : Acq) (s : State)
    (es : List Event) : acqStep u a ((c.place n s).playing es) =
      ((acqStep u a s).1, (c.place n (acqStep u a s).2).playing es) := by
  cases c <;> cases a with
  | exch f x => cases x <;> rfl
  | _ => rfl

/-- A line of ACQUIRE is one microstep, in either context. -/
theorem plays_line {c : AcqContext} {u : UnitId} {s : State} (hc : c.Of u) (a : Acq) :
    Plays [.seq] (c.place (.more a) s) (c.place (acqStep u a s).1 (acqStep u a s).2) := by
  cases c with
  | fg i =>
    refine plays_exec rfl rfl (irqReady_none_of_not_preemptible _ rfl) nofun fun rest => ?_
    rw [exec_acq hc rfl, fgAcquire_eq, acqStep_place]
    rfl
  | irq p =>
    cases hc
    refine plays_one fun rest => ?_
    have hline := irqStep_acq { p with line := .acq a }
      a (((AcqContext.irq p).place (.more a) s).playing rest) rfl
    rw [acqStep_place] at hline
    exact congrArg Host.Outcome.next hline

/-- The own unit's device drives its line during an acquisition, in either context. -/
theorem plays_sample {c : AcqContext} {u : UnitId} {s : State} (n : AcqNext) (b : Bool)
    (hu : u.val < s.params.nunits) (he : s.engU = some u) :
    Plays [.dout u b] (c.place n s) (c.place n { s with dout := s.dout.put u b }) := by
  cases c <;> exact plays_one fun rest => congrArg Host.Outcome.next (drive_own b hu he)

end Sys2Proof.Machine
end

section
/-! PROOFS. A whole acquisition whose samples form a given pattern, in either context: the pulses of EXCHANGE
and the lines of ACQUIRE around them. -/

namespace Sys2Proof.Machine

open Sys2Proof.Claims

/-! ### The pulses of EXCHANGE (rules R49, R72, R73) -/

/-- The waveform of the first n data pulses and m extra pulses of a frame, latest event first. -/
def pulseWave (u : UnitId) (v : BitVec 24) (n m : Nat) : List PinEvent :=
  (List.range m).flatMap (fun _ => [.edge u false, .edge u true]) ++
  (List.range n).flatMap fun b =>
    [.edge u false, .sample u (v.getLsbD (24 - n + b)), .edge u true]

/-- The state after n data pulses and m extra pulses of an exchange with unit u that began in s and whose
device presents the pattern v. -/
def State.pulsed (s : State) (u : UnitId) (v : BitVec 24) (n m : Nat) : State :=
  { s with
    sck := s.sck.put u { s.sck.look u with lvl := false }
    dout := s.dout.put u (v.getLsbD (24 - n))
    shift := v >>> (24 - n)
    bitcnt := n
    xcnt := m
    ghost := { s.ghost with
      exchReady := !(s.dout.look u)
      elapsed := s.ghost.elapsed + (n + m) * (s.params.tH + s.params.tL)
      wave := pulseWave u v n m ++ s.ghost.wave } }

/-- The state after one data pulse that samples b. -/
def State.dataPulse (s : State) (u : UnitId) (b : Bool) : State :=
  { s with
    sck := s.sck.put u { s.sck.look u with lvl := false }
    dout := s.dout.put u b
    shift := shiftIn s.shift b
    bitcnt := s.bitcnt + 1
    ghost := { s.ghost with
      elapsed := s.ghost.elapsed + s.params.tH + s.params.tL
      wave := .edge u false :: .sample u b :: .edge u true :: s.ghost.wave } }

/-- The state after one extra pulse. -/
def State.extraPulse (s : State) (u : UnitId) : State :=
  { s with
    sck := s.sck.put u { s.sck.look u with lvl := false }
    xcnt := s.xcnt + 1
    ghost := { s.ghost with
      elapsed := s.ghost.elapsed + s.params.tH + s.params.tL
      wave := .edge u false :: .edge u true :: s.ghost.wave } }

/-- The state in which EXCHANGE's first line leaves the machine. -/
def State.exchStarted (s : State) (u : UnitId) : State :=
  { s with shift := 0, bitcnt := 0, xcnt := 0, ghost := { s.ghost with exchReady := !s.dout.look u } }

/-- The six lines of a data pulse, with the level that its sample reads. -/
theorem plays_dataPulse {c : AcqContext} {u : UnitId} {f : Frame} {s : State} (b : Bool)
    (hc : c.Of u) (hu : u.val < s.params.nunits) (he : s.engU = some u) :
    Plays [.seq, .seq, .dout u b, .seq, .seq, .seq, .seq]
      (c.place (.more (.exch f .dataHigh)) s)
      (c.place (.more (.exch f (if s.bitcnt + 1 < 24 then .dataHigh else .extraHigh)))
        (s.dataPulse u b)) := by
  have h := (plays_line (s := s) hc (.exch f .dataHigh)).trans <|
    (plays_line hc (.exch f .dataSettle)).trans <|
    (plays_sample _ b (by exact hu) (by exact he)).trans <|
    (plays_line hc (.exch f .dataSample)).trans <| (plays_line hc (.exch f (.dataLow _))).trans <|
    (plays_line hc (.exch f (.dataRest _))).trans (plays_line hc (.exch f (.dataShift _)))
  simpa [State.dataPulse, acqStep, exchStep, afterDataPulse, State.pinWrite, State.wait,
    State.pinRead] using h

/-- The four lines of an extra pulse. -/
theorem plays_extraPulse {c : AcqContext} {u : UnitId} {f : Frame} {s : State} (hc : c.Of u) :
    Plays [.seq, .seq, .seq, .seq] (c.place (.more (.exch f .extraHigh)) s)
      (c.place (.more (.exch f (if s.xcnt + 1 < f.k then .extraHigh else .ret)))
        (s.extraPulse u)) := by
  have h := (plays_line (s := s) hc (.exch f .extraHigh)).trans <|
    (plays_line hc (.exch f .extraSettle)).trans <|
    (plays_line hc (.exch f .extraLow)).trans (plays_line hc (.exch f .extraRest))
  simpa [State.extraPulse, acqStep, exchStep, afterExtraPulse, State.pinWrite, State.wait] using h

/-- A data pulse shifts in the next bit of the pattern. -/
theorem shiftIn_ushiftRight (v : BitVec 24) {n : Nat} (hn : n < 24) :
    shiftIn (v >>> (24 - n)) (v.getLsbD (23 - n)) = v >>> (23 - n) := by
  refine BitVec.eq_of_getLsbD_eq fun m hm => ?_
  rw [shiftIn, BitVec.getLsbD_append]
  cases m with
  | zero => simp
  | succ m => simp [show m < 23 by omega, show 24 - n + m = 23 - n + (m + 1) by omega]

/-- A data pulse adds its three events to the waveform. -/
theorem pulseWave_data (u : UnitId) (v : BitVec 24) {n : Nat} (hn : n < 24) :
    pulseWave u v (n + 1) 0 =
      .edge u false :: .sample u (v.getLsbD (23 - n)) :: .edge u true :: pulseWave u v n 0 := by
  have hbit (b : Nat) : 23 - n + (b + 1) = 24 - n + b := by omega
  simp [pulseWave, List.range_succ_eq_map, List.flatMap_map, hbit]

/-- An extra pulse adds its two edges to the waveform. -/
theorem pulseWave_extra (u : UnitId) (v : BitVec 24) (n m : Nat) :
    pulseWave u v n (m + 1) = .edge u false :: .edge u true :: pulseWave u v n m := by
  simp [pulseWave, List.range_succ_eq_map, List.flatMap_map]

/-- A data pulse that samples the next bit of the pattern. -/
theorem dataPulse_pulsed (s : State) (u : UnitId) (v : BitVec 24) {n : Nat} (hn : n < 24) :
    (s.pulsed u v n 0).dataPulse u (v.getLsbD (23 - n)) = s.pulsed u v (n + 1) 0 := by
  have hbit : 24 - (n + 1) = 23 - n := by omega
  have htime (a b : Nat) : (n + 0) * (a + b) + a + b = (n + 1 + 0) * (a + b) := by ring
  simp only [State.dataPulse, State.pulsed, put_put, look_put, if_pos, shiftIn_ushiftRight v hn,
    pulseWave_data u v hn, hbit, ← htime, Nat.add_assoc, List.cons_append]

/-- One more extra pulse. -/
theorem extraPulse_pulsed (s : State) (u : UnitId) (v : BitVec 24) (n m : Nat) :
    (s.pulsed u v n m).extraPulse u = s.pulsed u v n (m + 1) := by
  have htime (a b : Nat) : (n + (m + 1)) * (a + b) = (n + m) * (a + b) + a + b := by ring
  simp only [State.extraPulse, State.pulsed, put_put, look_put, if_pos, pulseWave_extra, htime,
    Nat.add_assoc, List.cons_append]

/-- The first data pulse does not depend on the clock's and the line's levels before it. -/
theorem dataPulse_exchStarted (s : State) (u : UnitId) (v : BitVec 24) (b : Bool) :
    (s.exchStarted u).dataPulse u b = (s.pulsed u v 0 0).dataPulse u b := by
  simp [State.dataPulse, State.exchStarted, State.pulsed, pulseWave, BitVec.ushiftRight_eq_zero]

/-- The first n + 1 data pulses of a frame whose samples form v. -/
theorem plays_dataPulses {c : AcqContext} {u : UnitId} {f : Frame} {s : State} (v : BitVec 24)
    (hc : c.Of u) (hu : u.val < s.params.nunits) (he : s.engU = some u) {n : Nat} (hn : n < 24) :
    Plays ((List.range (n + 1)).flatMap fun p =>
        [.seq, .seq, .dout u (v.getLsbD (23 - p)), .seq, .seq, .seq, .seq])
      (c.place (.more (.exch f .dataHigh)) (s.exchStarted u))
      (c.place (.more (.exch f (if n + 1 < 24 then .dataHigh else .extraHigh)))
        (s.pulsed u v (n + 1) 0)) := by
  induction n with
  | zero =>
    have h := plays_dataPulse (f := f) (s := s.exchStarted u) (v.getLsbD 23) hc hu he
    rw [dataPulse_exchStarted s u v, dataPulse_pulsed s u v hn] at h
    exact h
  | succ n ih =>
    have h := plays_dataPulse (f := f) (s := s.pulsed u v (n + 1) 0) (v.getLsbD (23 - (n + 1)))
      hc hu he
    rw [dataPulse_pulsed s u v hn] at h
    have ih := ih (by omega)
    rw [if_pos hn] at ih
    rw [List.range_succ, List.flatMap_append, List.flatMap_singleton]
    exact ih.trans h

/-- The first m extra pulses of a frame. -/
theorem plays_extraPulses {c : AcqContext} {u : UnitId} {f : Frame} {s : State} (v : BitVec 24)
    (hc : c.Of u) {m : Nat} (hm : m ≤ f.k) (hk : 0 < f.k) :
    Plays (seqs (4 * m)) (c.place (.more (.exch f .extraHigh)) (s.pulsed u v 24 0))
      (c.place (.more (.exch f (if m < f.k then .extraHigh else .ret))) (s.pulsed u v 24 m)) := by
  induction m with
  | zero =>
    rw [if_pos hk]
    exact Plays.refl _
  | succ m ih =>
    have h := plays_extraPulse (f := f) (s := s.pulsed u v 24 m) hc
    rw [extraPulse_pulsed] at h
    have ih := ih (by omega)
    rw [if_pos (by omega)] at ih
    rw [seqs, Nat.mul_succ, List.replicate_add]
    exact ih.trans h

/-! ### A whole acquisition (rules R73, R79, R88) -/

/-- The state in which ACQUIRE's first line leaves the machine. -/
def State.acqEntered (s : State) (u : UnitId) : State :=
  { s.modUnit u ({ · with inH := true }) with engU := some u }

/-- The three microsteps from the first line of ACQUIRE to the first data pulse, with the frame of the
table. -/
theorem plays_acqStart {c : AcqContext} {u : UnitId} {s : State} (hc : c.Of u) :
    Plays (seqs 3) (c.place (.more .enter) s)
      (c.place (.more (.exch (tableFrame (s.units.look u)) .dataHigh))
        ((s.acqEntered u).exchStarted u)) := by
  have hframe : tableFrame ((s.acqEntered u).units.look u) = tableFrame (s.units.look u) := by
    simp [State.acqEntered, tableFrame]
  have hselect := plays_line (s := s.acqEntered u) hc .select
  rw [acqStep_select, hframe] at hselect
  exact (plays_line hc .enter).trans (hselect.trans (plays_line hc (.exch _ .clear)))

/-- The state after the return of EXCHANGE, the commit of the pattern it returned, and the release. -/
def State.acqReturned (s : State) (u : UnitId) (f : Frame) : State :=
  (acqStep u (.release f.ch) (acqStep u (.commit f s.shift) (acqStep u (.exch f .ret) s).2).2).2

/-- The four microsteps from the return of EXCHANGE to the return of ACQUIRE. -/
theorem plays_acqReturn {c : AcqContext} {u : UnitId} {f : Frame} {s : State} (hc : c.Of u) :
    Plays (seqs 4) (c.place (.more (.exch f .ret)) s) (c.place (.done f.ch) (s.acqReturned u f)) :=
  (plays_line hc (.exch f .ret)).trans <| (plays_line hc (.commit f s.shift)).trans <|
    (plays_line hc (.release f.ch)).trans (plays_line hc (.ret f.ch))

/-- The state after a whole acquisition of unit u whose samples form v, the positions of the contexts left
as they are (rules R70, R73, R79, R88). -/
def State.acquired (s : State) (u : UnitId) (v : BitVec 24) : State :=
  let f := tableFrame (s.units.look u)
  { s with
    units := s.units.put u (acquiredBank (s.units.look u) f v)
    sck := s.sck.put u { s.sck.look u with lvl := false }
    dout := s.dout.put u (v.getLsbD 0)
    engU := none
    shift := Config.freeShift s.ghost.draws
    bitcnt := (Config.freeBitcnt s.ghost.draws).val
    xcnt := (Config.freeXcnt s.ghost.draws).val
    ghost := { s.ghost with
      devsel := s.ghost.devsel.put u (if s.dout.look u then .unknown else devSelOf f.k)
      exchReady := !s.dout.look u
      elapsed := s.ghost.elapsed + (24 + f.k) * (s.params.tH + s.params.tL)
      wave := frameWave u v f.k ++ s.ghost.wave
      draws := s.ghost.draws + 1 } }

/-- The commit and the release leave the bank that rule R88 says. -/
theorem commit_acquiredBank (b : UnitBank) (f : Frame) (v : BitVec 24) :
    { ({ b with inH := true } : UnitBank).commit f v with inH := false } = acquiredBank b f v := by
  obtain ⟨ch, nA, k⟩ := f
  cases ch <;> rfl

theorem pulseWave_frame (u : UnitId) (v : BitVec 24) (k : Nat) : pulseWave u v 24 k = frameWave u v k := by
  simp only [pulseWave, frameWave, Nat.sub_self, Nat.zero_add]

/-- The lines of ACQUIRE around the pulses of its frame make the whole acquisition. -/
theorem acqReturned_pulsed (s : State) (u : UnitId) (v : BitVec 24) :
    ((s.acqEntered u).pulsed u v 24 (tableFrame (s.units.look u)).k).acqReturned u
      (tableFrame (s.units.look u)) = s.acquired u v := by
  simp only [State.acqReturned, acqStep, exchStep, State.pulsed, State.acqEntered, State.modUnit,
    State.acquired, look_put, if_pos, put_put, commit_acquiredBank, pulseWave_frame, Nat.sub_self,
    BitVec.ushiftRight_zero]
  cases s.dout.look u <;> rfl

theorem tableFrame_ok (b : UnitBank) : (tableFrame b).Ok := by
  rw [← selectFrame_eq_tableFrame]
  exact selectFrame_ok _ _ _

/-- The events of an acquisition whose samples form v take either context from the first line of ACQUIRE
to its return. -/
theorem plays_acquire {c : AcqContext} {u : UnitId} {s : State} (v : BitVec 24) (hc : c.Of u)
    (hu : u.val < s.params.nunits) :
    Plays (acquireEvents u v (tableFrame (s.units.look u)).k) (c.place (.more .enter) s)
      (c.place (.done (tableFrame (s.units.look u)).ch) (s.acquired u v)) := by
  have hk := (tableFrame_ok (s.units.look u)).k_range.1
  have hdata := plays_dataPulses (f := tableFrame (s.units.look u)) (s := s.acqEntered u) v hc hu rfl
    (show 23 < 24 by decide)
  have hextra := plays_extraPulses (s := s.acqEntered u) v hc le_rfl hk
  rw [if_neg (lt_irrefl _)] at hdata hextra
  rw [← acqReturned_pulsed]
  exact (plays_acqStart hc).trans (hdata.trans (hextra.trans (plays_acqReturn hc)))

/-- A frame has as many rising and as many falling edges as pulses (rule R73). -/
theorem frameWave_count (u : UnitId) (v : BitVec 24) (k : Nat) (lvl : Bool) :
    (frameWave u v k).count (.edge u lvl) = 24 + k := by
  cases lvl <;> simp [frameWave, List.count_flatMap, Function.comp_def, Nat.add_comm]

/-- A whole acquisition leaves what rules R70, R73, R79 and R88 say. -/
theorem acquired_frameDone (s : State) (u : UnitId) (v : BitVec 24) :
    FrameDone s (s.acquired u v) u v (tableFrame (s.units.look u)) where
  units := rfl
  sck := rfl
  dout := rfl
  engU := rfl
  slots := rfl
  params := rfl
  cmd := rfl
  ovr := rfl
  resp := rfl
  wave := rfl
  rising := frameWave_count _ _ _ _
  falling := frameWave_count _ _ _ _
  elapsed := rfl
  devsel := rfl

end Sys2Proof.Machine
end

section
/-! PROOFS. The whole commands READ and NBREAD: with a frame, and the poll that never ends. -/

namespace Sys2Proof.Machine

open Sys2Proof.Claims

/-! ### READ and NBREAD with a frame (rules R91, R92) -/

/-- Events at the head of the interleaving are played in as many steps. -/

theorem Plays.run {es rest : List Event} {s t : State} {n : Nat} (h : Plays es s t)
    (hs : s.sched = es ++ rest) (hn : es.length = n) :
    Host.Core.run Sys2Proof.core n s = .next (t.playing rest) := by
  have hself : s.playing (es ++ rest) = s := by rw [← hs]; rfl
  rw [← (h rest).run, hself, hn]

theorem acquireEvents_length (u : UnitId) (v : BitVec 24) (k : Nat) :
    (acquireEvents u v k).length = 175 + 4 * k := by
  have hdata : (dataEvents u v).length = 168 := by simp [dataEvents]
  simp only [acquireEvents, seqs, List.length_append, List.length_replicate, hdata]
  omega

/-- The end of a READ or NBREAD whose acquisition of unit u began in s and had samples that form v. -/
def State.frameRead (s : State) (u : UnitId) (v : BitVec 24) : State :=
  (s.acquired u v).unmask.complete (channelWord (tableFrame (s.units.look u)).ch)

/-- The acquisition, the unmasking and the completion of READ and NBREAD. -/
theorem plays_frame {i : Instr} {u : UnitId} {s : State} (v : BitVec 24) (hi : Acquires i u)
    (hcmd : s.cmd = encode i) (hirq : s.irq = none) (hpend : ∀ j : SlotId, (s.slots.look j).pend = false)
    (hu : u.val < s.params.nunits) :
    Plays (acquireEvents u v (tableFrame (s.units.look u)).k ++ seqs 2) (s.mask.goto (.acq .enter))
      (s.frameRead u v) := by
  have hacq := plays_acquire (c := .fg i) (s := s.mask) v hi hu
  rw [AcqContext.place_fg _ (s := s.mask) hcmd hirq,
    AcqContext.place_fg _ (s := s.mask.acquired u v) hcmd hirq] at hacq
  refine hacq.trans (Plays.trans (es := [.seq]) (es' := [.seq])
    (t := (s.acquired u v).unmask.goto (.acqDone (some (tableFrame (s.units.look u)).ch))) ?_ ?_)
  · exact plays_exec hcmd hirq (irqReady_none_of_no_pend _ hpend) nofun fun _ => exec_acqExit hi rfl
  · exact plays_exec hcmd hirq (irqReady_none_of_no_pend _ hpend) nofun fun _ => exec_acqDone hi rfl

/-- What a READ or NBREAD that ran its frame leaves. -/
theorem frameRead_frameDone (s : State) (u : UnitId) (v : BitVec 24) (rest : List Event) :
    FrameDone s ((s.frameRead u v).playing rest) u v (tableFrame (s.units.look u)) :=
  { acquired_frameDone s u v with }

/-- Settles O33: NBREAD's first microstep needs no ready unit, and the events play the frame to its end. -/
theorem nbreadAcquiresFrame : Obligations.NbreadAcquiresFrame := by
  intro s u v rest hacc hirq hpend hu hc hv hs
  have hframe := plays_frame v (.inr rfl) hacc.2 hirq hpend hu
  refine ⟨_, _, exec_nbreadStart hacc.1 hu hc hv, hframe.run (hs.trans (List.append_assoc _ _ _).symm) ?_,
    frameRead_frameDone s u v rest, rfl, rfl, rfl, hirq, rfl, rfl, rfl, rfl⟩
  rw [List.length_append, acquireEvents_length, seqs, List.length_replicate]
  omega

/-- The mask and the one ready check of a READ whose unit is ready. -/
theorem plays_poll {u : UnitId} {s : State} (hcmd : s.cmd = encode (.read u)) (hirq : s.irq = none)
    (hpend : ∀ j : SlotId, (s.slots.look j).pend = false) (hready : s.dout.look u = false) :
    Plays (seqs 2) (s.goto .pollEnter) (s.mask.goto (.acq .enter)) := by
  refine Plays.trans (es := [.seq]) (es' := [.seq]) (t := s.mask.goto .pollCheck) ?_ ?_
  · exact plays_exec hcmd hirq (irqReady_none_of_no_pend _ hpend) nofun fun _ => exec_pollEnter rfl
  · refine plays_exec hcmd hirq (irqReady_none_of_no_pend _ hpend) nofun fun es => ?_
    rw [exec_pollCheck rfl, pollCheck_eq]
    exact congrArg (fun p => Host.Outcome.next ((s.mask.goto p).playing es)) (if_pos hready)

/-- Settles O34: READ's first microstep, the poll that finds its unit ready, and the frame to its end. -/
theorem readAcquiresFrame : Obligations.ReadAcquiresFrame := by
  intro s u v rest hacc hirq _ hpend hu hc hv hready hs
  have hstart : exec (.read u) s = .next (s.goto .pollEnter) := by
    rw [exec_readStart hacc.1 hu hc, readStart_detached hv]
  have hframe := (plays_poll hacc.2 hirq hpend hready).trans
    (plays_frame v (.inl rfl) hacc.2 hirq hpend hu)
  refine ⟨_, _, hstart, hframe.run ?_ ?_, frameRead_frameDone s u v rest, rfl, rfl, rfl, hirq, rfl,
    rfl, rfl, rfl⟩
  · rw [List.append_assoc, List.append_assoc]
    exact hs
  · simp only [List.length_append, acquireEvents_length, seqs, List.length_replicate]
    omega

/-! ### READ of a unit that is not ready (rules R91, R129) -/

/-- An invariant that every step keeps, and that lets every step answer, holds after any number of steps. -/
theorem run_keeps {P : State → Prop} (hstep : ∀ t, P t → ∃ t', step t = .next t' ∧ P t') (n : Nat) :
    ∀ s, P s → ∃ t, Host.Core.run Sys2Proof.core n s = .next t ∧ P t := by
  induction n with
  | zero => exact fun s hs => ⟨s, rfl, hs⟩
  | succ n ih =>
    intro s hs
    obtain ⟨t, ht, hP⟩ := hstep s hs
    have hst : Sys2Proof.core.step s = .next t := ht
    simpa only [Host.Core.run, hst] using ih t hP

/-- The lines of the poll of a READ whose unit is not ready (rule R91). -/
def FgPos.polls : FgPos → Bool
  | .pollEnter | .pollCheck | .acqExit none | .acqDone none => true
  | _ => false

/-- In t a READ polls its unit u, which is not ready, with nothing coming from outside, and the banks, slots,
pins and result are those of s. -/
structure Polling (u : UnitId) (s t : State) : Prop where
  alone : RunsAlone (.read u) t
  notReady : t.dout.look u = true
  line : t.fg.polls = true
  same : t.units = s.units ∧ t.slots = s.slots ∧ t.sck = s.sck ∧ t.result = s.result

/-- A poll goes on to its next line. -/
theorem Polling.step {u : UnitId} {s t : State} (h : Polling u s t) :
    ∃ t', step t = .next t' ∧ Polling u s t' := by
  obtain ⟨halone, hd, hline, hsame⟩ := h
  obtain ⟨henter, hcheck, hexit, hwait, -⟩ := readPollLines t u
  have hf : t.fg ≠ .idle := fun hp => by rw [hp] at hline; cases hline
  rw [step_alone halone hf]
  cases hp : t.fg with
  | pollEnter => exact ⟨_, henter hp, halone, hd, rfl, hsame⟩
  | pollCheck =>
    rw [hd] at hcheck
    exact ⟨_, hcheck hp, halone, hd, rfl, hsame⟩
  | acqExit r =>
    cases r with
    | none => exact ⟨_, hexit none hp, halone, hd, rfl, hsame⟩
    | some => rw [hp] at hline; cases hline
  | acqDone r =>
    cases r with
    | none => exact ⟨_, hwait hp, halone, hd, rfl, hsame⟩
    | some => rw [hp] at hline; cases hline
  | _ => rw [hp] at hline; cases hline

theorem Polling.busy {u : UnitId} {s t : State} (h : Polling u s t) : t.busy = true :=
  decide_eq_true fun hp => by
    have hline := h.line
    rw [hp] at hline
    cases hline

/-- Settles O36: a power-on reset leaves the lines and the interleaving; without one the poll goes on
(`Polling.step`), however many steps are taken. -/
theorem readWaitsWhileNotReady : Obligations.ReadWaitsWhileNotReady := by
  constructor
  · intro s rest hs
    exact ⟨_, step_cons hs, rfl, rfl, rfl⟩
  · intro s u ⟨hsched, hirq, _, hpend⟩ hp hcmd hd n
    have hstart : Polling u s s := ⟨⟨hcmd, hsched, hirq, hpend⟩, hd, by rw [hp]; rfl, rfl, rfl, rfl, rfl⟩
    obtain ⟨t, ht, hpoll⟩ := run_keeps (fun _ => Polling.step) n s hstart
    exact ⟨t, ht, hpoll.busy, hpoll.alone.1.trans hcmd.symm, hpoll.same⟩

end Sys2Proof.Machine
end

section
/-! PROOFS. The registry commands IATT and IDET: their lines, the whole commands with nothing coming from
outside, and the capacity of the registry. -/

namespace Sys2Proof.Machine

open Sys2Proof.Claims

/-! ### The capacity of the registry (rule R96) -/

/-- Two attached units have two slots: outside `IDET`'s window a unit's slot records it, and the slot of the
unit in the window is free, so it is no other unit's. -/
theorem RegistryOk.slot_injective {s : State} (h : RegistryOk s) {u v : UnitId}
    (hu : (s.units.look u).slotV = true) (hv : (s.units.look v).slotV = true)
    (huv : (s.units.look u).slot = (s.units.look v).slot) : u = v := by
  obtain ⟨h29, hl⟩ := h
  have free (w : UnitId) (hw : s.detaching = some w) :
      (s.slots.look (s.units.look w).slot).occ = false := hl.freed w _ hw rfl
  by_cases hdu : s.detaching = some u
  · by_cases hdv : s.detaching = some v
    · exact Option.some.inj (hdu.symm.trans hdv)
    · have hocc := (h29.d v _ hv hdv rfl).1
      rw [← huv, free u hdu] at hocc
      cases hocc
  · obtain ⟨hocc, hunit⟩ := h29.d u _ hu hdu rfl
    by_cases hdv : s.detaching = some v
    · rw [huv, free v hdv] at hocc
      cases hocc
    · rw [← hunit, huv]
      exact (h29.d v _ hv hdv rfl).2

/-- Settles O55: the attached units have different slots (`RegistryOk.slot_injective`), and there are four. -/
theorem atMostFourAttached : Obligations.AtMostFourAttached := by
  intro s h29 hl
  have hslots : (((List.finRange 16).filter fun u : UnitId => (s.units.look u).slotV).map
      fun u => (s.units.look u).slot).Nodup := by
    refine List.Nodup.map_on (fun u hu v hv => ?_) ((List.nodup_finRange 16).filter _)
    exact RegistryOk.slot_injective ⟨h29, hl⟩ (List.mem_filter.1 hu).2 (List.mem_filter.1 hv).2
  simpa using hslots.length_le_card

/-! ### The lines of DETACH_BODY (rule R94) -/

/-- With no acquisition of the unit in progress DETACH_BODY goes on to deregister it. -/
theorem detachWait_ready {s : State} {u : UnitId} (hh : (s.units.look u).inH = false) :
    detachWait u s = s.goto .deregEnter := by
  simp [detachWait, hh]

/-- While an acquisition of the unit is in progress DETACH_BODY waits. -/
theorem detachWait_busy {s : State} {u : UnitId} (hh : (s.units.look u).inH = true) :
    detachWait u s = (s.wait s.params.tPoll).goto .detWait := by
  simp [detachWait, hh]

/-- DETACH_BODY has nothing to do for a unit that is not attached. -/
theorem detachStart_detached {s : State} {u : UnitId} {after : State → State}
    (hv : (s.units.look u).slotV = false) : detachStart u after s = after s := by
  simp [detachStart, hv]

/-- On an attached unit DETACH_BODY goes to its test. -/
theorem detachStart_attached {s : State} {u : UnitId} {after : State → State}
    (hv : (s.units.look u).slotV = true) : detachStart u after s = detachWait u s := by
  simp [detachStart, hv]

/-- Each command that runs DETACH_BODY has something that follows it. -/
theorem afterDetach_exists {i : Instr} {u : UnitId} (hi : i = .idet u ∨ i = .reset u ∨ i = .init u) :
    ∃ after, AfterDetach i u after := by
  obtain rfl | hr := hi
  · exact ⟨_, .inr ⟨rfl, rfl⟩⟩
  · exact ⟨_, .inl ⟨hr.symm, rfl⟩⟩

/-- Settles O17: each line is DETACH_BODY's own; the last one also does what follows the body. -/
theorem detachLines : Obligations.DetachLines := by
  intro s u i hi
  obtain ⟨after, hafter⟩ := afterDetach_exists hi
  have line (p : FgPos) (hd : p.inDetach = true) (hp : s.fg = p) :
      exec i s = ofLine (detachLine u after p s) := exec_detachLine hafter hp hd
  refine ⟨fun hp hh => ?_, fun hp hh => ?_, line .deregEnter rfl, line .deregSlot rfl,
    fun j => line (.deregClear j) rfl, line .deregExit rfl, fun hp => ⟨fun he => ?_, fun hne => ?_⟩⟩
  · rw [line .detWait rfl hp, detachLine, detachWait_ready hh]
    rfl
  · rw [line .detWait rfl hp, detachLine, detachWait_busy hh, ← hp]
    rfl
  · exact exec_detachLine (.inr ⟨he, rfl⟩) hp rfl
  · exact exec_detachLine (.inl ⟨(hi.resolve_left hne).symm, rfl⟩) hp rfl

/-! ### IDET (rule R94) -/

/-- IDET of an existing unit passes its check and begins DETACH_BODY. -/
theorem exec_idetStart {s : State} {u : UnitId} (hp : s.fg = .start) (hu : u.val < s.params.nunits) :
    exec (.idet u) s = .next (detachStart u (·.complete 1) s) := by
  simp only [exec, execIdet, hp, checkUnit_passes hu]

/-- Settles O18: the start of DETACH_BODY by its three cases. -/
theorem idetStarts : Obligations.IdetStarts := by
  intro s u hp hu
  rw [exec_idetStart hp hu]
  refine ⟨fun hv => ?_, fun hv hh => ?_, fun hv hh => ?_⟩
  · rw [detachStart_detached hv]
    rfl
  · rw [detachStart_attached hv, detachWait_ready hh]
    rfl
  · rw [detachStart_attached hv, detachWait_busy hh]
    rfl

/-- Settles O31: IDET's first microstep goes to the deregistration, and DETACH_BODY takes five more
(`leads_detach`). -/
theorem idetRunsToDetached : Obligations.IdetRunsToDetached := by
  intro s u hq hacc hu hv hh
  obtain ⟨halone, him⟩ := runsAlone_of_quiet hq hacc
  have hstart : exec (.idet u) s = .next (s.goto .deregEnter) := by
    rw [exec_idetStart hacc.1 hu, detachStart_attached hv, detachWait_ready hh]
  exact ⟨_, hstart, (leads_detach (s := s.goto .deregEnter) halone (.inr ⟨rfl, rfl⟩) rfl him).run⟩

/-! ### The lines of IATT (rule R93) -/

/-- IATT of a configured unit passes its checks and masks. -/
theorem exec_iattStart {s : State} {u : UnitId} (hp : s.fg = .start) (hu : u.val < s.params.nunits)
    (hc : (s.units.look u).cfg = true) : exec (.iatt u) s = .next (s.mask.goto .arm) := by
  simp only [exec, execIatt, hp, checkCfg_passes hu hc]

theorem exec_arm {s : State} {u : UnitId} (hp : s.fg = .arm) :
    exec (.iatt u) s = .next (attachArm u s) := by
  simp only [exec, execIatt, hp]

theorem exec_attachNext {s : State} {u : UnitId} (hp : s.fg = .attachNext) :
    exec (.iatt u) s =
      .next ((s.modUnit u ({ · with nextA := true })).goto (.attachExit false)) := by
  simp only [exec, execIatt, hp]

theorem exec_attachExit {s : State} {u : UnitId} {f : Bool} (hp : s.fg = .attachExit f) :
    exec (.iatt u) s = .next (s.unmask.goto (.attachDone f)) := by
  simp only [exec, execIatt, hp]

theorem exec_attachDone {s : State} {u : UnitId} {f : Bool} (hp : s.fg = .attachDone f) :
    exec (.iatt u) s = .next (s.complete (boolWord (!f))) := by
  simp only [exec, execIatt, hp]

/-- On the three failures nothing is armed. -/
theorem attachArm_fails {s : State} {u : UnitId}
    (hf : (s.units.look u).slotV = true ∨ s.params.capable u = false ∨
      ∀ i : SlotId, (s.slots.look i).occ = true) :
    attachArm u s = s.goto (.attachExit true) := by
  rw [attachArm, (attachSlot_eq_none u s).2 hf]

/-- A capable unit that is not attached takes the lowest free slot. -/
theorem attachArm_takes {s : State} {u : UnitId} {i : SlotId} (hv : (s.units.look u).slotV = false)
    (hcap : s.params.capable u = true) (hfree : (s.slots.look i).occ = false)
    (hlow : ∀ j : SlotId, j < i → (s.slots.look j).occ = true) :
    attachArm u s = (s.arm u i).goto (.pwr .engOn) := by
  rw [attachArm, (attachSlot_eq_some u s i).2 ⟨hv, hcap, hfree, hlow⟩]

/-- Settles O19: the line is `attachArm`, by its two cases. -/
theorem attachArmsLowestFreeSlot : Obligations.AttachArmsLowestFreeSlot := by
  intro s u hp
  rw [exec_arm hp]
  refine ⟨fun hf => ?_, fun i hv hcap hfree hlow => ?_⟩
  · rw [attachArm_fails hf]
    rfl
  · rw [attachArm_takes hv hcap hfree hlow]
    rfl

/-- Settles O20: each line is IATT's own; the result is the success as a word. -/
theorem attachEnds : Obligations.AttachEnds := by
  refine fun s u => ⟨exec_attachNext, fun f => exec_attachExit, fun f hp => ?_⟩
  rw [exec_attachDone hp]
  cases f <;> rfl

/-! ### The whole IATT (rule R93) -/

/-- Arming a slot, which clears its pending bit, leaves a command running alone. -/
theorem RunsAlone.arm {i : Instr} {s : State} (h : RunsAlone i s) (u : UnitId) (j : SlotId) :
    RunsAlone i (s.arm u j) := by
  obtain ⟨hcmd, hsched, hirq, hpend⟩ := h
  refine ⟨hcmd, hsched, hirq, fun k => ?_⟩
  rw [State.arm_slots, look_put]
  split
  · rfl
  · exact hpend k

/-- The last two microsteps of an IATT that runs alone. -/
theorem leads_attachDone {u : UnitId} {f : Bool} {s : State} (h : RunsAlone (.iatt u) s)
    (hp : s.fg = .attachExit f) : Leads 2 s (s.unmask.complete (boolWord (!f))) :=
  (leads_alone h hp nofun (exec_attachExit hp)).trans
    (leads_alone (s := s.unmask.goto (.attachDone f)) h rfl nofun (exec_attachDone rfl))

/-- The nine microsteps from the armed slot to the end of an IATT that runs alone. -/
theorem leads_attached {u : UnitId} {s : State} (h : RunsAlone (.iatt u) s)
    (hp : s.fg = .pwr .engOn) :
    Leads 9 s (((s.powerCycled u).modUnit u ({ · with nextA := true })).unmask.complete 1) := by
  have hcycle := leads_powerCycle h (.inr ⟨rfl, rfl⟩) hp
  have hnext := leads_alone (s := (s.powerCycled u).goto .attachNext) h rfl nofun (exec_attachNext rfl)
  have hdone := leads_attachDone
    (s := ((s.powerCycled u).modUnit u ({ · with nextA := true })).goto (.attachExit false)) h rfl
  exact hcycle.trans (hnext.trans hdone)

/-- Settles O32: the masked check fails and IATT ends in two microsteps, or it arms the slot and IATT ends
after the power cycle in nine. -/
theorem iattRunsToResult : Obligations.IattRunsToResult := by
  intro s u hq hacc hu hc
  obtain ⟨halone, him⟩ := runsAlone_of_quiet hq hacc
  have hmasked : RunsAlone (.iatt u) (s.mask.goto .arm) := halone
  have hstart := exec_iattStart hacc.1 hu hc
  have harm {t : State} (ht : attachArm u (s.mask.goto .arm) = t) : Leads 1 (s.mask.goto .arm) t :=
    leads_alone hmasked rfl nofun (ht ▸ exec_arm rfl)
  refine ⟨fun hf => ⟨_, hstart, ?_⟩, fun i hv hcap hfree hlow => ⟨_, hstart, ?_⟩⟩
  · have hend := leads_attachDone (s := (s.mask.goto .arm).goto (.attachExit true)) hmasked rfl
    rw [((harm (attachArm_fails hf)).trans hend).run, ← unmask_of_unmasked him]
    rfl
  · have hend := leads_attached (s := ((s.mask.goto .arm).arm u i).goto (.pwr .engOn))
      (hmasked.arm u i) rfl
    rw [((harm (attachArm_takes hv hcap hfree hlow)).trans hend).run]
    simp [State.mask, State.unmask, State.arm, State.modSlot, State.modUnit,
      State.powerCycled, State.complete, State.goto, him]

end Sys2Proof.Machine
end

section
/-! PROOFS. The GSTATE command and its word, bit by bit (rule R99). -/

namespace Sys2Proof

theorem Gain.bit_eq (g : Gain) : g.bit = decide (g = .low) := by cases g <;> rfl

theorem Channel.bit_eq (c : Channel) : c.bit = decide (c = .b) := by cases c <;> rfl

end Sys2Proof

namespace Sys2Proof.Machine

open Sys2Proof.Claims

theorem exec_gstate {s : State} {u : UnitId} (hp : s.fg = .start) :
    exec (.gstate u) s = .next (checked (checkUnit s u) s (s.complete (s.gstateWord u))) := by
  simp only [exec, execGstate, hp]

/-- The unit is the only operand of `GSTATE`. -/
theorem encode_gstate (u : UnitId) :
    encode (.gstate u) = 0x0000000D ||| (BitVec.ofNat 32 u.val <<< 8) := by
  simp [encode, assemble, bitAt]

/-! ### The bits of the word -/

/-- Bit m of the two-bit field of a slot's number is 0 outside the field. -/
theorem slot_testBit (i : SlotId) {m : Nat} (hm : 2 ≤ m) : i.val.testBit m = false :=
  testBit_of_lt (k := 2) i.isLt hm

theorem gstateWord_getLsbD (s : State) (u : UnitId) (n : Nat) : (s.gstateWord u).getLsbD n =
    ((decide (n = 0) && (s.units.look u).cfg) || (decide (n = 1) && (s.units.look u).enB) ||
    (decide (n = 2) && (s.units.look u).gain.bit) || (decide (n = 3) && (s.units.look u).nextA) ||
    (decide (n = 4) && (s.units.look u).slotV) ||
    (decide (5 ≤ n) && (s.units.look u).slot.val.testBit (n - 5)) ||
    (decide (n = 7) && (s.units.look u).inH) || (decide (n = 8) && (s.units.look u).last.bit) ||
    (decide (n = 9) && s.params.capable u) || (decide (n = 10) && s.pinRead u) ||
    (decide (n = 11) && ((s.sck.look u).drv && (s.sck.look u).lvl)) ||
    (decide (n = 12) && (s.sck.look u).drv)) := by
  simp only [State.gstateWord, BitVec.getLsbD_or, bitAt_getLsbD, field_getLsbD]
  by_cases h : n < 32
  · simp only [h, decide_true, Bool.true_and]
  · simp [h, slot_testBit (s.units.look u).slot (m := n - 5) (by omega)]
    omega

theorem gstateWord_slot (s : State) (u : UnitId) :
    ((s.gstateWord u).extractLsb' 5 2).toNat = (s.units.look u).slot.val := by
  suffices h : (s.gstateWord u).extractLsb' 5 2 = BitVec.ofNat 2 (s.units.look u).slot.val by
    rw [h, BitVec.toNat_ofNat, Nat.mod_eq_of_lt (s.units.look u).slot.isLt]
  refine BitVec.eq_of_getLsbD_eq fun j hj => ?_
  rw [BitVec.getLsbD_extractLsb', gstateWord_getLsbD, BitVec.getLsbD_ofNat]
  interval_cases j <;> simp

theorem gstateWord_high (s : State) (u : UnitId) (n : Nat) (hn : 13 ≤ n) :
    (s.gstateWord u).getLsbD n = false := by
  rw [gstateWord_getLsbD, slot_testBit _ (by omega)]
  simp
  omega

theorem gstateWord_inH (s : State) (u : UnitId) :
    (s.gstateWord u).getLsbD 7 = (s.units.look u).inH := by
  rw [gstateWord_getLsbD, slot_testBit _ (by decide)]
  simp

theorem gstateWord_sckLvl (s : State) (u : UnitId) :
    (s.gstateWord u).getLsbD 11 = ((s.sck.look u).drv && (s.sck.look u).lvl) := by
  rw [gstateWord_getLsbD, slot_testBit _ (by decide)]
  simp

/-! ### The word while the command runs, and after power-on -/

/-- At the first line of a command the engine is free, as `start` is a preemption point (rule R106). -/
theorem op_start {s : State} (hp : s.fg = .start) (hn : s.irq = none) : s.op = .free :=
  op_preemptible hn (by rw [hp]; rfl)

/-- At the first line of a command the engine holds no unit, so `INH` is 0. -/
theorem gstateWord_inH_of_start {s : State} {u : UnitId} (hp : s.fg = .start) (hn : s.irq = none)
    (h : EngineOk s) : (s.gstateWord u).getLsbD 7 = false := by
  rw [gstateWord_inH, h.2 u, acquiring_op, op_start hp hn]
  rfl

/-- At the first line of a command the engine holds no clock high, so `SCKLVL` of a configured unit is 0. -/
theorem gstateWord_sckLvl_of_start {s : State} {u : UnitId} (hp : s.fg = .start) (hn : s.irq = none)
    (h : PinsOk s) (hc : (s.units.look u).cfg = true) : (s.gstateWord u).getLsbD 11 = false := by
  obtain ⟨hdrv, hlvl⟩ := h u
  have hlow : (s.sck.look u).lvl = false := by
    rw [hlvl (hdrv.trans hc), clockHigh_op, op_start hp hn]
    rfl
  rw [gstateWord_sckLvl, hlow, Bool.and_false]

theorem gstateWord_powerOn {s : State} {u : UnitId} (hb : s.units.look u = UnitBank.powerOn)
    (hd : (s.sck.look u).drv = false) : s.gstateWord u =
      0x00000008 ||| (if s.params.irqCapable.getLsbD u.val = true then 0x200 else 0) |||
        (if s.dout.look u = true then 0x400 else 0) := by
  rw [State.gstateWord, hb, hd, Params.capable, State.pinRead, Bool.false_and]
  cases s.params.irqCapable.getLsbD u.val <;> cases s.dout.look u <;> decide

/-- Settles O12: an existing unit passes the check and the result is its word, whose stored flags are
read off `gstateWord_getLsbD`; any other fails it. -/
theorem gstateWordR99 : Obligations.GstateWordR99 := by
  intro s u hp
  refine ⟨encode_gstate u, fun hu => ⟨s.gstateWord u, ?_, ?_⟩, fun hu => ?_⟩
  · rw [exec_gstate hp, checkUnit_passes hu]
    rfl
  · refine ⟨?_, ?_, ?_, ?_, ?_, gstateWord_slot s u, gstateWord_inH s u, ?_, ?_, ?_,
      gstateWord_sckLvl s u, ?_, gstateWord_high s u, gstateWord_inH_of_start hp,
      gstateWord_sckLvl_of_start hp, gstateWord_powerOn⟩
    all_goals
      rw [gstateWord_getLsbD]
      simp [slot_testBit, Gain.bit_eq, Channel.bit_eq, Params.capable, State.pinRead]
  · rw [exec_gstate hp, checkUnit_fails hu]
    rfl

end Sys2Proof.Machine
end

section
/-! PROOFS. What makes a step, said once with the event that makes it: the inversion lemma `step_by`. The
contexts: dispatch entry and exit, and what a dispatch and a step leave alone. -/

namespace Sys2Proof.Machine

open Sys2Proof.Claims

/-! ### The edge latch on one slot (rule R108) -/

/-- An environment step latches a falling edge in a slot armed for its unit, unless the engine operates that
unit. -/
theorem drive_slot {s : State} {w : UnitId} {lvl : Bool} (hw : w.val < s.params.nunits) (i : SlotId) :
    (s.drive w lvl).slots.look i = { s.slots.look i with
      pend := (s.slots.look i).pend || ((s.dout.look w) && !lvl && (s.slots.look i).occ &&
        decide ((s.slots.look i).unit = w) && decide (s.engU ≠ some w)) } := by
  rw [drive_eq s w lvl hw]
  cases hfall : s.dout.look w && !lvl
  · simp
  · simp [latch_eq]

/-- An environment step clears no pending bit. -/
theorem drive_pend {s : State} {w : UnitId} {lvl : Bool} {i : SlotId}
    (hi : (s.slots.look i).pend = true) : ((s.drive w lvl).slots.look i).pend = true := by
  by_cases hw : w.val < s.params.nunits
  · rw [drive_slot hw, hi, Bool.true_or]
  · rw [drive_absent s w lvl (Nat.le_of_not_lt hw), hi]

/-! ### One microstep of a dispatch (rules R111, R112) -/

/-- The IRQ position keeps its slot and its unit. -/
theorem irqStep_position {p q : IrqPos} {s : State} (hq : (irqStep p s).irq = some q) :
    q.slot = p.slot ∧ q.unit = p.unit := by
  cases hl : p.line with
  | acq a => rw [irqStep_acq p a s hl] at hq; cases hq; exact ⟨rfl, rfl⟩
  | exit => rw [irqStep_exit p s hl] at hq; cases hq

/-- Only the exit ends a dispatch. -/
theorem irqStep_ends {p : IrqPos} {s : State} (hn : (irqStep p s).irq = none) : p.line = .exit := by
  cases hl : p.line with
  | acq a => rw [irqStep_acq p a s hl] at hn; cases hn
  | exit => rfl

/-- The engine does not configure a unit (rules R72, R88). -/
theorem acqStep_cfg (u : UnitId) (a : Acq) (s : State) (w : UnitId) :
    ((acqStep u a s).2.units.look w).cfg = (s.units.look w).cfg := by
  cases a with
  | enter | release => exact look_put_congr UnitBank.cfg (by rfl) w
  | commit f v =>
    obtain ⟨ch, nA, k⟩ := f
    cases ch <;> exact look_put_congr UnitBank.cfg (by rfl) w
  | exch f x => rw [acqStep_exch]; exact congrArg (fun v => (v.look w).cfg) (exchStep_units u f.k x s)
  | select | ret => rfl

/-- A dispatch neither configures a unit nor attaches or detaches one. -/
theorem irqStep_flags (p : IrqPos) (s : State) (w : UnitId) :
    ((irqStep p s).units.look w).cfg = (s.units.look w).cfg ∧
      ((irqStep p s).units.look w).slotV = (s.units.look w).slotV := by
  cases hl : p.line with
  | acq a =>
    rw [irqStep_acq p a s hl]
    exact ⟨acqStep_cfg p.unit a s w, (acqStep_sameRegistry p.unit a s).slotV w⟩
  | exit => rw [irqStep_exit p s hl]; exact ⟨rfl, rfl⟩

/-! ### What makes a step (rules R43, R105) -/

/-- The IRQ position, every unit and every pending bit are as before, but for newly latched edges. -/
structure Aside (s t : State) : Prop where
  irq : t.irq = s.irq
  units : t.units = s.units
  sck : t.sck = s.sck
  devsel : t.ghost.devsel = s.ghost.devsel
  pend : ∀ i : SlotId, (s.slots.look i).pend = true → (t.slots.look i).pend = true

/-- What makes a step: something that operates no unit (the host, an edge, the rest at `IDLE`, the error of an
illegal word), a power-on reset, the dispatch in progress, the entry of one, or a command. -/
inductive StepBy (s : State) : State → Prop
  | aside {t : State} (hk : Aside s t) : StepBy s t
  | powerOn (he : s.nextEvent = .powerOn) : StepBy s s.popEvent.powerOnReset
  | dispatch (p : IrqPos) (he : s.nextEvent = .seq) (hp : s.irq = some p) :
      StepBy s (irqStep p s.popEvent)
  | entry (i : SlotId) (he : s.nextEvent = .seq) (hr : s.irqReady = some i) :
      StepBy s (s.popEvent.irqEnter i)
  | command (i : Instr) {t : State} (he : s.nextEvent = .seq) (hn : s.irq = none)
      (hd : decode s.cmd = .ok i) (hx : exec i s.popEvent = .next t) : StepBy s t

/-- Every step is made by one of these. -/
theorem step_by {s t : State} (h : step s = .next t) : StepBy s t := by
  rcases step_next s t h with ⟨addr, n, -, rfl⟩ | ⟨addr, n, v, -, rfl⟩ | ⟨u, lvl, -, rfl⟩ |
    ⟨he, rfl⟩ | ⟨he, p, hp, rfl⟩ | ⟨he, -, i, hr, rfl⟩ | ⟨he, hn, -, hf⟩
  · obtain ⟨r, e⟩ := hostRead_eq s.popEvent addr n
    exact .aside (e ▸ ⟨rfl, rfl, rfl, rfl, fun _ => id⟩)
  · obtain ⟨r, e | ⟨-, e⟩ | ⟨o, e⟩⟩ := hostWrite_cases s.popEvent addr n v <;>
      exact .aside (e ▸ ⟨rfl, rfl, rfl, rfl, fun _ => id⟩)
  · refine .aside ?_
    have hpend (i : SlotId) := drive_pend (s := s.popEvent) (w := u) (lvl := lvl) (i := i)
    obtain ⟨d, sl, e⟩ := drive_cases s.popEvent u lvl
    rw [e] at hpend ⊢
    exact ⟨rfl, rfl, rfl, rfl, hpend⟩
  · exact .powerOn he
  · exact .dispatch p he hp
  · exact .entry i he hr
  · rcases foreground_next s.popEvent t hf with ⟨-, rfl⟩ | ⟨-, i, hd, hx⟩ | ⟨-, e, -, rfl⟩
    · exact .aside ⟨rfl, rfl, rfl, rfl, fun _ => id⟩
    · exact .command i he hn hd hx
    · exact .aside ⟨rfl, rfl, rfl, rfl, fun _ => id⟩

/-! ### What a dispatch and a step leave alone (rules R111, R119) -/

/-- Settles O40: `irqStep_frame`, and `irqStep_position` for the IRQ position. -/
theorem dispatchTouchesOnlyItsUnit : Obligations.DispatchTouchesOnlyItsUnit := by
  intro s p he hp
  have f := irqStep_frame p s.popEvent
  exact ⟨_, step_irq s p he hp, f.fg, f.cmd, f.result, f.done, f.err, f.ovr, f.ecode, f.slots, f.dout,
    f.params, f.resp, fun q hq => irqStep_position hq,
    fun v hv => ⟨f.units v hv, f.sck v hv, f.devsel v hv⟩⟩

/-- Settles O60: a dispatch operates the unit latched at entry (`irqStep_frame`), a command the unit its word
names (`exec_frame`), and nothing else but power-on touches a unit. -/
theorem otherUnitsUntouched : Obligations.OtherUnitsUntouched := by
  intro s t v h hpow hirq hfg
  cases step_by h with
  | aside hk => rw [hk.units, hk.sck, hk.devsel]; exact ⟨rfl, rfl, rfl⟩
  | powerOn he => exact absurd he hpow
  | dispatch p he hp =>
    have f := irqStep_frame p s.popEvent
    have hv : v ≠ p.unit := (hirq p hp).symm
    exact ⟨f.units v hv, f.sck v hv, f.devsel v hv⟩
  | entry => exact ⟨rfl, rfl, rfl⟩
  | command i he hn hd hx =>
    exact (exec_frame i s.popEvent t hx).2 v (decode_workUnit hd ▸ (hfg hn).symm)

/-! ### Dispatch entry and exit (rules R110, R112) -/

/-- With FG unmasked at a preemption point, a pending slot makes a dispatch eligible. -/
theorem irqReady_of_pend {s : State} {j : SlotId} (hn : s.irq = none) (him : s.im = false)
    (hf : s.fg.preemptible = true) (hj : (s.slots.look j).pend = true) : ∃ i, s.irqReady = some i := by
  have hlow : s.irqReady = lowestSlot (·.pend) s.slots := by simp [State.irqReady, hn, him, hf]
  rw [hlow, ← Option.ne_none_iff_exists']
  intro hnone
  have hj' := (lowestSlot_eq_none _ _).1 hnone j
  exact absurd hj (Bool.eq_false_iff.1 hj')

/-- Settles O38: the entry is the step when it is eligible (`irqReady_eq_some`), and nothing else starts a
dispatch. -/
theorem irqEntryR110 : Obligations.IrqEntryR110 := by
  constructor
  · intro s i he hn him hf hi hlow
    exact step_irqEnter s i he ((irqReady_eq_some s i).2 ⟨hn, him, hf, hi, hlow⟩)
  · intro s t h hn ht
    have stays (hirq : t.irq = s.irq) : False := by rw [hirq, hn] at ht; cases ht
    cases step_by h with
    | aside hk => exact (stays hk.irq).elim
    | powerOn => exact (stays hn.symm).elim
    | dispatch p he hp => rw [hn] at hp; cases hp
    | entry i he hr =>
      obtain ⟨-, him, hf, hi, hlow⟩ := (irqReady_eq_some s i).1 hr
      exact ⟨he, him, hf, i, hi, hlow, rfl⟩
    | command i he _ hd hx => exact (stays (exec_frame i s.popEvent t hx).1.irq).elim

/-- The exit of a dispatch is the sequencer's next microstep. -/
theorem step_irqExit {s : State} {i : SlotId} {u : UnitId} (he : s.nextEvent = .seq)
    (hp : s.irq = some ⟨i, u, .exit⟩) : step s = .next s.popEvent.irqExit := by
  rw [step_irq s _ he hp, irqStep_exit _ _ rfl]

/-- Settles O39: the exit unmasks, so that a pending slot is eligible at once; a dispatch's other lines, an
entry and a command leave an IRQ position where there was one. -/
theorem irqExitR112 : Obligations.IrqExitR112 := by
  refine ⟨fun s i u he hp => step_irqExit he hp, fun s i j u hs hp hf hj => ?_, fun s t p h hp hn => ?_⟩
  · have he : s.nextEvent = .seq := by rw [State.nextEvent, hs]; rfl
    have he' : s.popEvent.irqExit.nextEvent = .seq := by
      rw [State.nextEvent, State.irqExit_sched, popEvent_of_nil hs, hs]; rfl
    obtain ⟨k, hr⟩ := irqReady_of_pend (s := s.popEvent.irqExit) rfl rfl hf hj
    exact ⟨_, _, step_irqExit he hp, step_irqEnter _ k he' hr, rfl, rfl⟩
  · cases step_by h with
    | aside hk => rw [hk.irq, hp] at hn; cases hn
    | powerOn he => exact .inl he
    | dispatch q he hq =>
      rw [hp] at hq
      cases hq
      exact .inr ⟨he, irqStep_ends hn⟩
    | entry => cases hn
    | command i he hn' => rw [hp] at hn'; cases hn'

/-! ### What clears a pending bit (rule R108) -/

/-- Of a command's lines the deregistration and the arming alone clear a pending bit, each that of its slot. -/
theorem CommandLine.clears {i : Instr} {u : UnitId} {s t : State} {j : SlotId}
    (hl : CommandLine i u s t) (hs : (s.slots.look j).pend = true) (ht : (t.slots.look j).pend = false) :
    s.fg = .deregClear j ∨ (s.fg = .arm ∧ (s.slots.look j).occ = false) := by
  have same (hslots : t.slots = s.slots) : False := by rw [hslots, hs] at ht; cases ht
  have own {k : SlotId} {x : Slot} (hslots : t.slots = s.slots.put k x) : j = k := by
    by_contra hjk
    rw [hslots, look_put, if_neg hjk, hs] at ht
    cases ht
  cases hl with
  | deregClear k hp => rw [own (k := k) rfl]; exact .inl hp
  | arm k hp _ hk =>
    rw [own (k := k) rfl]
    exact .inr ⟨hp, ((attachSlot_eq_some u s k).1 hk).2.2.1⟩
  | pwr q next => rw [fgPowerCycle_eq] at same; exact (same (pwrStep_frame u q s).slots).elim
  | acq a => rw [fgAcquire_eq] at same; exact (same (acqStep_frame u a s).slots).elim
  | _ => exact (same rfl).elim

/-- Settles O37: the latch is `drive_slot`; of what makes a step, an entry clears the bit of its slot and a
command what `CommandLine.clears` says. -/
theorem edgeLatchR108 : Obligations.EdgeLatchR108 := by
  constructor
  · intro s w lvl rest hs hw
    refine ⟨(s.drive w lvl).slots, ?_, fun i => drive_slot hw i⟩
    rw [step_cons hs, drive_eq s w lvl hw]
    exact congrArg Host.Outcome.next (drive_eq { s with sched := rest } w lvl hw)
  · intro s t i h hpend hclear
    have same (hslots : t.slots = s.slots) : False := by rw [hslots, hpend] at hclear; cases hclear
    cases step_by h with
    | aside hk => rw [hk.pend i hpend] at hclear; cases hclear
    | powerOn he => exact .inl he
    | dispatch p => exact (same (irqStep_frame p s.popEvent).slots).elim
    | entry j he hr =>
      have hj : i = j := by
        by_contra hij
        rw [State.irqEnter_slots, look_put, if_neg hij, State.popEvent_slots, hpend] at hclear
        cases hclear
      exact .inr ⟨he, ((irqReady_eq_some s j).1 hr).1, .inl (hj ▸ hr)⟩
    | command c he hn hd hx => exact .inr ⟨he, hn, .inr ((exec_line c _ t hx).clears hpend hclear)⟩

/-! ### A whole dispatch (rules R111, R112) -/

/-- The end of a dispatch is one microstep. -/
theorem plays_irqExit {p : IrqPos} {ch : Channel} {s : State} :
    Plays [.seq] ((AcqContext.irq p).place (.done ch) s) s.irqExit :=
  plays_one fun _ => rfl

/-- Settles O35: `plays_acquire` in the dispatch, and its exit. -/
theorem dispatchAcquiresFrame : Obligations.DispatchAcquiresFrame := by
  intro s i u v rest hp hu hs
  have hplace : (AcqContext.irq ⟨i, u, .acq .enter⟩).place (.more .enter) s = s := by
    change { s with irq := some ⟨i, u, .acq .enter⟩ } = s
    rw [← hp]
  have hframe := (plays_acquire (c := .irq ⟨i, u, .acq .enter⟩) (u := u) (s := s) v rfl hu).trans
    plays_irqExit
  rw [hplace] at hframe
  refine ⟨_, hframe.run (hs.trans (List.append_assoc _ [Event.seq] _).symm) ?_,
    { acquired_frameDone s u v with }, rfl, rfl, rfl, rfl, rfl, rfl, rfl, rfl⟩
  rw [List.length_append, acquireEvents_length, List.length_singleton]
  omega

end Sys2Proof.Machine
end

section
/-! PROOFS. The checks of every command, as one table of its opcode (rules R100, R102). -/

namespace Sys2Proof.Machine

open Sys2Proof.Claims

/-- The checks a command makes at its first microstep (rule R102). -/
def commandCheck (i : Instr) (s : State) : Option CmdError :=
  match i with
  | .nop => none
  | .reset u | .read u | .iatt u => checkCfg s u
  | .nbread u => checkMode s u
  | .init u | .enb u _ | .gain u _ | .rdy u | .idet u | .isim u | .graw u _ | .gcnt u | .gstate u =>
    checkUnit s u

/-- DETACH_BODY's first line raises nothing, if what follows the body does not. -/
theorem detachStart_raises_nothing {u : UnitId} {after : State → State} {s : State}
    (ha : (after s).err = s.err ∧ (after s).ecode = s.ecode) :
    (detachStart u after s).err = s.err ∧ (detachStart u after s).ecode = s.ecode := by
  unfold detachStart detachWait
  split
  · split <;> exact ⟨rfl, rfl⟩
  · exact ha

/-- READ's first line raises nothing. -/
theorem readStart_raises_nothing (u : UnitId) (s : State) :
    (readStart u s).err = s.err ∧ (readStart u s).ecode = s.ecode := by
  unfold readStart
  split <;> exact ⟨rfl, rfl⟩

/-- The first microstep of every command makes its checks and runs a first line that raises nothing. -/
theorem exec_start (i : Instr) {s : State} (hp : s.fg = .start) :
    ∃ r, exec i s = .next (checked (commandCheck i s) s r) ∧ r.err = s.err ∧ r.ecode = s.ecode := by
  cases i with
  | nop => exact ⟨_, exec_nop hp, rfl, rfl⟩
  | init u => exact ⟨_, exec_initStart hp, rfl, rfl⟩
  | reset u =>
    exact ⟨resetStart u s, by simp only [exec, execReset, hp, commandCheck],
      detachStart_raises_nothing ⟨rfl, rfl⟩⟩
  | enb u b => exact ⟨_, exec_enb hp, rfl, rfl⟩
  | gain u g => exact ⟨_, exec_gain hp, rfl, rfl⟩
  | rdy u => exact ⟨_, exec_rdy hp, rfl, rfl⟩
  | read u =>
    exact ⟨readStart u s, by simp only [exec, execRead, hp, commandCheck], readStart_raises_nothing u s⟩
  | nbread u =>
    exact ⟨s.mask.goto (.acq .enter), by simp only [exec, execNbread, hp, commandCheck], rfl, rfl⟩
  | iatt u => exact ⟨s.mask.goto .arm, by simp only [exec, execIatt, hp, commandCheck], rfl, rfl⟩
  | idet u =>
    exact ⟨detachStart u (·.complete 1) s, by simp only [exec, execIdet, hp, commandCheck],
      detachStart_raises_nothing ⟨rfl, rfl⟩⟩
  | isim u => exact ⟨_, exec_isim hp, rfl, rfl⟩
  | graw u ch => exact ⟨_, exec_graw hp, rfl, rfl⟩
  | gcnt u => exact ⟨_, exec_gcnt hp, rfl, rfl⟩
  | gstate u => exact ⟨_, exec_gstate hp, rfl, rfl⟩

/-- The checks in rule R102's order, by the command's opcode and the unit it names. -/
theorem commandCheck_eq (i : Instr) (s : State) : commandCheck i s =
    if i.opcode ≠ 0x00 ∧ s.params.nunits ≤ (Instr.workUnit i).val then some .unit
    else if i.opcode ∈ [0x02, 0x06, 0x07, 0x08] ∧ (s.units.look (Instr.workUnit i)).cfg = false then
      some .nocfg
    else if i.opcode = 0x07 ∧ (s.units.look (Instr.workUnit i)).slotV = true then some .mode
    else none := by
  cases i <;>
    simp [commandCheck, checkUnit, checkCfg, checkMode, Instr.opcode, Instr.workUnit, Instr.unit?]

/-- Settles O8: a word of class 1 or 2 raises its error before any check; a command's checks are
`commandCheck_eq`, and its first line raises nothing (`exec_start`). -/
theorem commandChecksR102 : Obligations.CommandChecksR102 := by
  constructor
  · intro s t h he hirq w
    cases step_by h with
    | aside hk => rw [hk.units]; exact ⟨rfl, rfl⟩
    | powerOn hpow => rw [he] at hpow; cases hpow
    | dispatch p => exact irqStep_flags p s.popEvent w
    | entry => exact ⟨rfl, rfl⟩
    | command i _ hn _ hx =>
      have ht : t.irq = none := (exec_frame i s.popEvent t hx).1.irq.trans hn
      rw [hn, ht] at hirq
      simp at hirq
  · intro s hs ⟨he, hn, hr⟩
    rw [step_foreground s he hn hr]
    split
    · next hopc => exact foreground_error s.popEvent .opc hs (decode_illegal hopc)
    next hopc =>
    split
    · next hm => exact foreground_error s.popEvent .rsvd hs (decode_reserved (Nat.lt_of_not_le hopc) hm)
    next hm =>
    obtain ⟨i, hi⟩ := decode_wellFormed (Nat.lt_of_not_le hopc) (not_not.1 hm)
    obtain ⟨r, hx, herr, hcode⟩ := exec_start i (s := s.popEvent) hs
    have hidle : s.popEvent.fg ≠ .idle := by rw [State.popEvent_fg, hs]; decide
    have hfore := foreground_ok s.popEvent i hidle hi
    rw [commandCheck_eq, decode_opcode _ i hi, decode_workUnit hi, State.popEvent_params,
      State.popEvent_units] at hx
    rw [hfore]
    split_ifs at hx ⊢
    · exact hx
    · exact hx
    · exact hx
    · exact ⟨i, r, hi, hx, hx, herr, hcode⟩

end Sys2Proof.Machine
end

section
/-! PROOFS. Power-on (rule R122): the stated values, and that they meet the invariant. -/

namespace Sys2Proof.Machine

open Sys2Proof.Claims

/-- Power-on gives the stated values whatever t has for the parameters and for what rule R122 leaves open or
the environment keeps. -/
theorem powerOn_values (t : State) (hdrv : ∀ u : UnitId, (t.sck.look u).drv = false)
    (hsel : ∀ u : UnitId, t.ghost.devsel.look u = .unknown) :
    PowerOnValues { State.powerOn t.params with
      dout := t.dout, sck := t.sck, shift := t.shift, bitcnt := t.bitcnt, xcnt := t.xcnt
      sched := t.sched, ghost := t.ghost } where
  ctx := rfl
  im := rfl
  fg := rfl
  cmd := rfl
  status := by simp [State.status, State.busy, State.powerOn, bitAt]
  result := rfl
  occ := by simp [State.occWord, State.powerOn, bitAt]
  slotmap := by simp [State.slotmapWord, State.powerOn]
  units := look_replicate _
  sck := hdrv
  engU := rfl
  devsel := hsel
  noDispatch := by simp [State.irqReady, State.powerOn, lowestSlot]

theorem reset_values : PowerOnValues State.reset :=
  powerOn_values State.reset (fun u => by simp [State.reset, State.powerOn])
    fun u => by simp [State.reset, State.powerOn]

theorem powerOnReset_values (s : State) : PowerOnValues s.powerOnReset :=
  powerOn_values s.powerOnReset (fun u => by simp [State.powerOnReset])
    fun u => by simp [State.powerOnReset]

/-- Settles O48: both states have the stated values, and `CAP` shows parameters only. -/
theorem powerOnValuesR122 : Obligations.PowerOnValuesR122 :=
  ⟨reset_values, fun s rest hs =>
    have hstep : step s = .next { s with sched := rest }.powerOnReset := step_cons hs
    ⟨_, hstep, powerOnReset_values _, (step_move hstep).capWord⟩⟩

end Sys2Proof.Machine

namespace Sys2Proof.Claims

open Sys2Proof.Machine

section
variable {t : State} (h : PowerOnValues t)
include h

/-- Register `OCC` reads 0, so no slot is occupied and none is pending (rule R22). -/
theorem PowerOnValues.slot (i : SlotId) :
    (t.slots.look i).occ = false ∧ (t.slots.look i).pend = false := by
  obtain ⟨hocc, hpend⟩ := occWord_slot t i
  rw [← hocc, ← hpend, h.occ]
  exact ⟨BitVec.getLsbD_zero, BitVec.getLsbD_zero⟩

/-- `STATUS` reads 0, so there is neither an end of a command nor an error to tell (rule R20). -/
theorem PowerOnValues.statusOk : StatusOk t := by
  obtain ⟨-, hdone, herr, -, -, -, -, -, hcode, -⟩ := statusFields t
  rw [h.status] at hdone herr hcode
  rw [StatusOk, ← hdone, ← herr, ← hcode, h.fg]
  decide

/-- The sequencer waits at `IDLE` in FG, where the engine is free. -/
theorem PowerOnValues.op : t.op = .free :=
  op_preemptible h.ctx (by rw [h.fg]; rfl)

theorem PowerOnValues.maskOk : MaskOk t := by
  rw [MaskOk, h.im, h.ctx, h.fg]
  decide

theorem PowerOnValues.engineOk : EngineOk t :=
  (engineOk_iff t).2 (h.op ▸ ⟨h.engU, fun u => by rw [h.units u]; rfl⟩)

/-- No unit is configured, and no clock is driven. -/
theorem PowerOnValues.pinsOk : PinsOk t := fun u => by
  rw [h.sck u, h.units u]
  exact ⟨rfl, nofun⟩

/-- The registry is empty and no unit is attached. -/
theorem PowerOnValues.registryOk : RegistryOk t := by
  have hocc (i : SlotId) : (t.slots.look i).occ ≠ true := by simp [(h.slot i).1]
  have hpend (i : SlotId) : (t.slots.look i).pend ≠ true := by simp [(h.slot i).2]
  have hfree (u : UnitId) : (t.units.look u).slotV ≠ true := by simp [h.units u]
  refine ⟨⟨fun i hp => absurd hp (hpend i), fun i j hi => absurd hi (hocc i),
    fun i u hi => absurd hi (hocc i), fun u i hv => absurd hv (hfree u)⟩,
    .of_knows (fun u _ => by rw [h.units u]) (fun u hv => absurd hv (hfree u)) ?_ ?_⟩
  · rw [h.fg]; trivial
  · rw [h.ctx]; exact nofun

theorem PowerOnValues.rawOk : RawOk t := fun u => by
  rw [h.units u]
  decide

/-- The selection of no device is known. -/
theorem PowerOnValues.syncOk : SyncOk t :=
  (syncOk_iff t).2 ⟨fun u _ hu => absurd (h.devsel u) hu, fun hc => by rw [h.fg] at hc; cases hc⟩

/-- The stated values meet the invariant, with counts in their ranges and well-formed parameters. -/
theorem PowerOnValues.inv (hp : t.params.wf) (hb : t.bitcnt ≤ 24) (hx : t.xcnt ≤ 3) : Inv t where
  params := hp
  position := .inl h.fg
  mask := h.maskOk
  engine := h.engineOk
  pins := h.pinsOk
  registry := h.registryOk.1
  lines := h.registryOk.2
  raw := h.rawOk
  status := h.statusOk
  counts := (CountsAre.of_ranges hb hx fun u a => by rw [h.op]; exact nofun).countOk h.maskOk
  sync := h.syncOk

end

end Sys2Proof.Claims

namespace Sys2Proof.Machine

/-- Settles O49: `PowerOnValues.inv`, at the counts and the parameters of the reset state. -/
theorem resetMeetsInvariant : Obligations.ResetMeetsInvariant :=
  reset_values.inv (by decide) (Nat.zero_le _) (Nat.zero_le _)

end Sys2Proof.Machine
end
